-- ==== Sys2Proof/Word.lean ====
section
/-! DEFINITION. The value types of DESCORE (spec/00_scope.md R9, R11): every value is an unsigned
bit vector, bit 0 the least significant. -/

namespace Sys2Proof

/-- A 64-bit register, block, key or command word (R9, R10: `DW = 64`). -/
abbrev Word := BitVec 64

/-- A 32-bit half of a block (R9). -/
abbrev Half := BitVec 32

/-- A 48-bit expanded half or subkey (R9). -/
abbrev Subkey := BitVec 48

/-- The 56-bit value `C ‖ D` (R9, R77). -/
abbrev KeyHalves := BitVec 56

/-- One 28-bit key-schedule half, C or D (R9, R33). -/
abbrev KeyHalf := BitVec 28

/-- A byte offset into the 256-byte register window (R10: `AW = 8`). -/
abbrev Offset := BitVec 8

/-- A round of the source's numbering 1..16, held as its index from 0: `i` stands for round `i + 1`. -/
abbrev RoundIx := Fin 16

end Sys2Proof
end

