-- ==== Sys2Proof/Syntax.lean ====
section
/-! DEFINITION. The commands of DESCORE: one constructor per row of spec/opcode_table.json
(spec/30_encoding.md R67). The only operand field is the round index RND of format CR (R65). -/

namespace Sys2Proof

/-- A command (R67). The `rnd` operand is the field `v[12:8]` as it stands in the word, 5 bits. -/
inductive Instr where
  | nop                       -- 0x00, R128
  | ksd                       -- 0x01, R113
  | enc                       -- 0x02, R125
  | dec                       -- 0x03, R126
  | srst                      -- 0x04, R129
  | ip                        -- 0x10, R93
  | fp                        -- 0x11, R94
  | split                     -- 0x12, R95
  | comb                      -- 0x13, R96
  | exp                       -- 0x14, R98
  | xork                      -- 0x15, R99
  | sbox                      -- 0x16, R100
  | permp                     -- 0x17, R101
  | swap                      -- 0x18, R97
  | ffn                       -- 0x19, R102
  | rndk                      -- 0x1A, R103
  | rnds (rnd : BitVec 5)     -- 0x1B, R104, format CR
  | pc1                       -- 0x20, R110
  | ksrot (rnd : BitVec 5)    -- 0x21, R111, format CR
  | pc2                       -- 0x22, R112
  | skrd (rnd : BitVec 5)     -- 0x23, R114, format CR
  deriving DecidableEq, Repr

end Sys2Proof
end

