-- ==== Sys2Proof/Machine/State.lean ====
section
/-! DEFINITION. The state of the engine (spec/10_state.md), the two stop reasons, and the state after
reset (R42, R143). The engine has no program counter, no memory and no privilege mode (R20, R45, R141). -/

namespace Sys2Proof.Machine

/-- FSM, the controller state (R35). The register's values 9 to 15 never occur (R35) and have no
constructor (log entry 5). -/
inductive Fsm where
  | idle          -- 0: no command since reset or SRST
  | initialized   -- 1: ENC or DEC accepted
  | permuted      -- 2: IP applied to the block
  | round         -- 3: round number ROUND just completed
  | swapped       -- 4: halves swapped after round 16
  | finalized     -- 5: the last command has completed
  | ksPc1         -- 6: PC1 applied, KSCNT = 0
  | ksRot         -- 7: derivation step KSCNT just completed
  | exec          -- 8: a command other than ENC, DEC, SRST accepted, not yet performed
  deriving DecidableEq, Repr

/-- What comes next from outside the engine, or a turn given to the engine before it (R44, R53, R56; log
entries 1 and 3). The list in `State` is the interleaving: host accesses stand in the order the host
issues them, and engine turns stand between them anywhere. -/
inductive Input where
  /-- `MemRead(off, size)`, a host read (R47). -/
  | read (off : Offset) (size : Nat)
  /-- `MemWrite(off, size, v)`, a host write (R47, R52). -/
  | write (off : Offset) (size : Nat) (v : Word)
  /-- The host's `WAIT`: read STATUS until its bit 0 is 0 (R70). -/
  | wait
  /-- The engine takes its next step before the next host access, if one is enabled (R116, R148). -/
  | engine
  /-- The reset input is asserted (R143). -/
  | reset
  deriving DecidableEq, Repr

/-- Why the machine stops with a fault. -/
inductive Fault where
  /-- Raised by an engine step in a combination of FSM, ROUND, KSCNT and LASTCMD for which R116 has no
  transition. R40 and R41 make every such combination unreachable, and 93_implementation_defined.md I4
  calls it stuck (log entries 5 and 9). Safe. -/
  | noTransition
  deriving DecidableEq, Repr

/-- Why the model gives a step no meaning. -/
inductive Refusal where
  /-- Raised by a refused arm of `exec`, for an instruction without a meaning. Safe. No arm raises it. -/
  | notModelled (mnemonic : String)
  /-- Raised by a host access that is misaligned or not 8 bytes wide: the bus answers with an error, no
  state of the engine changes, and the host is stuck (R48, 93_implementation_defined.md I2; log entry 4).
  Safe. -/
  | busError
  deriving DecidableEq, Repr

/-- The whole state: every register and internal value of spec/10_state.md, then two fields of the
model's own, `inputs` and `readData` (log entries 1 and 2). -/
structure State where
  /-- KEY (R22). -/
  key : Word
  /-- DIN (R23). -/
  din : Word
  /-- DOUT (R24). -/
  dout : Word
  /-- LASTCMD, the last accepted command word (R25). -/
  lastcmd : Word
  /-- OPA (R28). -/
  opa : Word
  /-- OPB (R28). -/
  opb : Word
  /-- RESA (R29). -/
  resa : Word
  /-- RESB (R29). -/
  resb : Word
  /-- STATUS.DONE (R26). -/
  done : Bool
  /-- STATUS.KV, key-valid (R34). -/
  kv : Bool
  /-- STATUS.ERR (R132). -/
  err : Bool
  /-- STATUS.ECODE (R131). -/
  ecode : BitVec 4
  /-- STATUS.FSM (R35). -/
  fsm : Fsm
  /-- STATUS.ROUND, Feistel rounds completed (R36). -/
  round : BitVec 5
  /-- STATUS.KSCNT, derivation steps completed (R37). -/
  kscnt : BitVec 5
  /-- CONFIG.DIE, done-interrupt enable (R27). -/
  die : Bool
  /-- CONFIG.EIE, error-interrupt enable (R27). -/
  eie : Bool
  /-- C, the upper key-schedule half (R33). -/
  c : KeyHalf
  /-- D, the lower key-schedule half (R33). -/
  d : KeyHalf
  /-- L, the upper round register (R31). -/
  l : Half
  /-- R, the lower round register (R31). -/
  r : Half
  /-- SK[1..16], the subkey file (R32); entry `r` is at index `r - 1`. -/
  sk : Vector Subkey 16
  /-- What the host and the reset input do next, and where the engine moves between (log entry 1). -/
  inputs : List Input
  /-- The value the port returned for the last host read, if there was one (R47; log entry 2). -/
  readData : Option Word
  deriving DecidableEq, Repr

/-- The state right after reset (R42, R143), with nothing pending and nothing read. -/
def State.reset : State where
  key := 0
  din := 0
  dout := 0
  lastcmd := 0
  opa := 0
  opb := 0
  resa := 0
  resb := 0
  done := false
  kv := false
  err := false
  ecode := 0
  fsm := .idle
  round := 0
  kscnt := 0
  die := false
  eie := false
  c := 0
  d := 0
  l := 0
  r := 0
  sk := Vector.replicate 16 0
  inputs := []
  readData := none

end Sys2Proof.Machine
end

