-- ==== Sys2Proof/Machine/Flags.lean ====
section
/-! DEFINITION. The STATUS, CONFIG and KSCD words and the interrupt output, as computed from the state
(spec/10_state.md R26, R27, R30, R35, R39; 60_exceptions.md R131, R139). -/

namespace Sys2Proof.Machine

/-- The 4-bit code of a controller state (R35). -/
def fsmCode : Fsm → BitVec 4
  | .idle => 0
  | .initialized => 1
  | .permuted => 2
  | .round => 3
  | .swapped => 4
  | .finalized => 5
  | .ksPc1 => 6
  | .ksRot => 7
  | .exec => 8

/-- STATUS.BUSY: FSM is neither IDLE nor FINALIZED (R26, R35). -/
def busy (s : State) : Bool :=
  match s.fsm with
  | .idle | .finalized => false
  | .initialized | .permuted | .round | .swapped | .ksPc1 | .ksRot | .exec => true

/-- One flag as a bit. -/
def bit (b : Bool) : BitVec 1 := BitVec.ofBool b

/-- The 64 bits of STATUS, most significant field first (R26); reserved fields read 0. -/
def statusWord (s : State) : Word :=
  (0 : BitVec 27) ++ s.kscnt ++ (0 : BitVec 3) ++ s.round ++ (0 : BitVec 4) ++ fsmCode s.fsm ++
  (0 : BitVec 4) ++ s.ecode ++ (0 : BitVec 4) ++ bit s.err ++ bit s.kv ++ bit s.done ++ bit (busy s)

/-- The 64 bits of CONFIG (R27). -/
def configWord (s : State) : Word := (0 : BitVec 62) ++ bit s.eie ++ bit s.die

/-- The 64 bits of KSCD (R30). -/
def kscdWord (s : State) : Word := (0 : BitVec 8) ++ s.c ++ s.d

/-- The ID constant (R21). -/
def idWord : Word := 0x0000000044455301

/-- The interrupt output, a level (R39, R139). -/
def irq (s : State) : Bool := (s.done && s.die) || (s.err && s.eie)

/-- The three recorded errors (R131). -/
inductive EngineError where
  | widthViolation
  | illegalCommand
  | busyViolation
  deriving DecidableEq, Repr

/-- The ECODE of an error (R131). -/
def errorCode : EngineError → BitVec 4
  | .widthViolation => 1
  | .illegalCommand => 2
  | .busyViolation => 3

end Sys2Proof.Machine
end

