-- ==== Sys2Proof/WellFormed.lean ====
section
/-! DEFINITION. Which commands have a legal encoding (R64, R68): a round index lies in 1..16. -/

namespace Sys2Proof

/-- `RND ∈ 1..16`, the check format CR puts on its round index (R64, R68). -/
def roundInRange (rnd : BitVec 5) : Bool := 1 ≤ rnd.toNat && rnd.toNat ≤ 16

/-- A command is well formed when its round index, if it has one, is in range (R68). -/
def Instr.wf : Instr → Bool
  | .rnds rnd | .ksrot rnd | .skrd rnd => roundInRange rnd
  | .nop | .ksd | .enc | .dec | .srst
  | .ip | .fp | .split | .comb | .exp | .xork | .sbox | .permp | .swap | .ffn | .rndk
  | .pc1 | .pc2 => true

end Sys2Proof
end

