-- ==== Sys2Proof/Decode.lean ====
section
/-! DEFINITION. Command words (spec/30_encoding.md R64 to R70): the decoder, total on every 64-bit
word and refusing by name, and the encoder after it. -/

namespace Sys2Proof

/-- Why a word is not legal (R69). -/
inductive DecodeError where
  /-- A nonzero bit in `v[63:13]`. -/
  | reservedBits
  /-- `v[7:0]` is no opcode of R67. -/
  | undefinedOpcode
  /-- A nonzero RND in a command of format C0. -/
  | roundFieldNotZero
  /-- RND = 0 or RND in 17..31 in a command of format CR. -/
  | roundOutOfRange
  deriving DecidableEq, Repr

/-- OPC, `v[7:0]` (R64). -/
def opcOf (v : Word) : BitVec 8 := v.extractLsb' 0 8

/-- RND, `v[12:8]` (R64, R65). -/
def rndOf (v : Word) : BitVec 5 := v.extractLsb' 8 5

/-- RSV, `v[63:13]` (R64). -/
def rsvOf (v : Word) : BitVec 51 := v.extractLsb' 13 51

/-- A command of format C0: RND must be 0 (R64, R68). -/
def formatC0 (rnd : BitVec 5) (i : Instr) : Except DecodeError Instr :=
  if rnd = 0 then .ok i else .error .roundFieldNotZero

/-- A command of format CR: RND must lie in 1..16 (R64, R68). -/
def formatCR (rnd : BitVec 5) (i : BitVec 5 → Instr) : Except DecodeError Instr :=
  if roundInRange rnd then .ok (i rnd) else .error .roundOutOfRange

/-- The opcode map of R67, with the format each opcode has. -/
def decodeFields (opc : Nat) (rnd : BitVec 5) : Except DecodeError Instr :=
  match opc with
  | 0x00 => formatC0 rnd .nop
  | 0x01 => formatC0 rnd .ksd
  | 0x02 => formatC0 rnd .enc
  | 0x03 => formatC0 rnd .dec
  | 0x04 => formatC0 rnd .srst
  | 0x10 => formatC0 rnd .ip
  | 0x11 => formatC0 rnd .fp
  | 0x12 => formatC0 rnd .split
  | 0x13 => formatC0 rnd .comb
  | 0x14 => formatC0 rnd .exp
  | 0x15 => formatC0 rnd .xork
  | 0x16 => formatC0 rnd .sbox
  | 0x17 => formatC0 rnd .permp
  | 0x18 => formatC0 rnd .swap
  | 0x19 => formatC0 rnd .ffn
  | 0x1A => formatC0 rnd .rndk
  | 0x1B => formatCR rnd .rnds
  | 0x20 => formatC0 rnd .pc1
  | 0x21 => formatCR rnd .ksrot
  | 0x22 => formatC0 rnd .pc2
  | 0x23 => formatCR rnd .skrd
  | _ => .error .undefinedOpcode

/-- The decoder, on any word (R68, R69). -/
def decodeWord (v : Word) : Except DecodeError Instr :=
  if rsvOf v = 0 then decodeFields (opcOf v).toNat (rndOf v) else .error .reservedBits

/-- `legal(v)` as R68 writes it, apart from the decoder. -/
def legal (v : Word) : Bool :=
  rsvOf v = 0
    && ((opcOf v).toNat ≤ 0x04 || (0x10 ≤ (opcOf v).toNat && (opcOf v).toNat ≤ 0x1B)
        || (0x20 ≤ (opcOf v).toNat && (opcOf v).toNat ≤ 0x23))
    && (if opcOf v = 0x1B ∨ opcOf v = 0x21 ∨ opcOf v = 0x23
        then decide (1 ≤ (rndOf v).toNat) && decide ((rndOf v).toNat ≤ 16) else rndOf v = 0)

/-- The opcode of a command (R67). -/
def opcode : Instr → BitVec 8
  | .nop => 0x00
  | .ksd => 0x01
  | .enc => 0x02
  | .dec => 0x03
  | .srst => 0x04
  | .ip => 0x10
  | .fp => 0x11
  | .split => 0x12
  | .comb => 0x13
  | .exp => 0x14
  | .xork => 0x15
  | .sbox => 0x16
  | .permp => 0x17
  | .swap => 0x18
  | .ffn => 0x19
  | .rndk => 0x1A
  | .rnds _ => 0x1B
  | .pc1 => 0x20
  | .ksrot _ => 0x21
  | .pc2 => 0x22
  | .skrd _ => 0x23

/-- The RND field of a command: its round index in format CR, 0 in format C0 (R64). -/
def rndField : Instr → BitVec 5
  | .rnds rnd | .ksrot rnd | .skrd rnd => rnd
  | .nop | .ksd | .enc | .dec | .srst
  | .ip | .fp | .split | .comb | .exp | .xork | .sbox | .permp | .swap | .ffn | .rndk
  | .pc1 | .pc2 => 0

/-- The encoder: `RSV = 0`, RND, OPC from the most significant bit down (R64, R70). -/
def encode (i : Instr) : Word := (0 : BitVec 51) ++ rndField i ++ opcode i

/-- What the decoder reads from the low `nbits` bits of `w`, numbered as spec/opcode_table.json numbers
them. A command is one 64-bit number (R47, R66), so no byte order enters; bits above `nbits` are 0. -/
def decodeTableWord (nbits w : Nat) : Option Instr :=
  if nbits ≤ 64 then
    match decodeWord (BitVec.ofNat 64 (w % 2 ^ nbits)) with
    | .ok i => some i
    | .error _ => none
  else none

end Sys2Proof
end

