-- ==== Sys2Proof/Machine/Datapath.lean ====
section
/-! DEFINITION. The named datapath functions of R16: pure functions on values, used by every command and
by the controller (spec/40_tables.md, 41_datapath.md R92, 42_key_schedule.md R105, 43_controller.md
R125, R126). -/

namespace Sys2Proof.Machine

/-- `perm(T, w, v)` (R13): output position `j` is input position `T[j]`, positions counted from the most
significant bit (R12), so position `p` of `v` is `v.getMsbD (p - 1)`. Used with `n` the length of `T`. -/
def perm (T : List Nat) {w : Nat} (v : BitVec w) (n : Nat) : BitVec n :=
  (BitVec.ofBoolListBE (T.map fun p => v.getMsbD (p - 1))).setWidth n

/-- `IPf` (R71). -/
def ipF (v : Word) : Word := perm tableIP v 64

/-- `FPf` (R72). -/
def fpF (v : Word) : Word := perm tableFP v 64

/-- `Ef` (R74). -/
def eF (r : Half) : Subkey := perm tableE r 48

/-- `Pf` (R75). -/
def pF (v : Half) : Half := perm tableP v 32

/-- `PC1f` (R76). -/
def pc1F (k : Word) : KeyHalves := perm tablePC1 k 56

/-- `PC2f` (R77). -/
def pc2F (cd : KeyHalves) : Subkey := perm tablePC2 cd 48

/-- `Sbox_i(g) = S_i[row(g)][col(g)]` (R79): the row is `2·g[5] + g[0]`, the column `g[4:1]`. -/
def sboxAt (S : List (List Nat)) (g : BitVec 6) : BitVec 4 :=
  BitVec.ofNat 4
    ((S.getD (2 * (g.extractLsb' 5 1).toNat + (g.extractLsb' 0 1).toNat) []).getD
      (g.extractLsb' 1 4).toNat 0)

/-- `Sf` (R88): group 1 is `x[47:42]` and feeds S1, whose nibble is the most significant. -/
def sF (x : Subkey) : Half :=
  sboxAt tableS1 (x.extractLsb' 42 6) ++ sboxAt tableS2 (x.extractLsb' 36 6) ++
  sboxAt tableS3 (x.extractLsb' 30 6) ++ sboxAt tableS4 (x.extractLsb' 24 6) ++
  sboxAt tableS5 (x.extractLsb' 18 6) ++ sboxAt tableS6 (x.extractLsb' 12 6) ++
  sboxAt tableS7 (x.extractLsb' 6 6) ++ sboxAt tableS8 (x.extractLsb' 0 6)

/-- `hi32(v) = v[63:32]` (R14). -/
def hi32 (v : Word) : Half := v.extractLsb' 32 32

/-- `lo32(v) = v[31:0]` (R14). -/
def lo32 (v : Word) : Half := v.extractLsb' 0 32

/-- The half swap `lo32(v) ‖ hi32(v)` (R97, R121). -/
def swapHalves (v : Word) : Word := lo32 v ++ hi32 v

/-- The round function `F(r, k) = Pf(Sf(Ef(r) xor k))` (R92). -/
def mangler (r : Half) (k : Subkey) : Half := pF (sF (eF r ^^^ k))

/-- `ROUNDf(s, k) = lo32(s) ‖ (hi32(s) xor F(lo32(s), k))` (R92). -/
def roundF (s : Word) (k : Subkey) : Word := lo32 s ++ (hi32 s ^^^ mangler (lo32 s) k)

/-- `shift(r)` (R78) of round `i + 1`: 1 for the rounds 1, 2, 9 and 16, else 2. -/
def shift (i : RoundIx) : Nat :=
  if i.val + 1 = 1 ∨ i.val + 1 = 2 ∨ i.val + 1 = 9 ∨ i.val + 1 = 16 then 1 else 2

/-- `rotl_28(x, s)` (R14). -/
def rotl28 (x : KeyHalf) (s : Nat) : KeyHalf := x.rotateLeft s

/-- C, the upper 28 bits of `C ‖ D` (R33). -/
def cHalf (cd : KeyHalves) : KeyHalf := cd.extractLsb' 28 28

/-- D, the lower 28 bits of `C ‖ D` (R33). -/
def dHalf (cd : KeyHalves) : KeyHalf := cd.extractLsb' 0 28

/-- One rotation stage: both halves turn by `shift(r)`, separately (R105, R111). -/
def rotateHalves (cd : KeyHalves) (i : RoundIx) : KeyHalves :=
  rotl28 (cHalf cd) (shift i) ++ rotl28 (dHalf cd) (shift i)

/-- `Cₙ ‖ Dₙ` of the key `k`: the halves after PC1 and `n` rotation stages (R105). Stages past 16 do not
exist and change nothing. -/
def halvesAfter (k : Word) : Nat → KeyHalves
  | 0 => pc1F k
  | n + 1 => if h : n < 16 then rotateHalves (halvesAfter k n) ⟨n, h⟩ else halvesAfter k n

/-- Subkey `i + 1` of `KS(k)` (R105). -/
def subkeyOf (k : Word) (i : RoundIx) : Subkey := pc2F (halvesAfter k (i.val + 1))

/-- `KS(k)`, the sixteen subkeys of a key (R105). -/
def keySchedule (k : Word) : Vector Subkey 16 := Vector.ofFn (subkeyOf k)

/-- The block after `n` Feistel rounds, round `j + 1` with subkey `ksel j` (R120, R125). Rounds past 16 do
not exist and change nothing. -/
def roundsF (ksel : RoundIx → Subkey) (s : Word) : Nat → Word
  | 0 => s
  | n + 1 => if h : n < 16 then roundF (roundsF ksel s n) (ksel ⟨n, h⟩) else roundsF ksel s n

/-- IP, sixteen rounds, the half swap, IP⁻¹ (R125). -/
def cipherF (ksel : RoundIx → Subkey) (b : Word) : Word :=
  fpF (swapHalves (roundsF ksel (ipF b) 16))

/-- `ENCf(b, k)` (R125): round `j` uses subkey `j`. -/
def encF (b k : Word) : Word := cipherF (subkeyOf k) b

/-- `DECf(b, k)` (R126): round `j` uses subkey `17 − j`. -/
def decF (b k : Word) : Word := cipherF (fun i => subkeyOf k i.rev) b

end Sys2Proof.Machine
end

