-- ==== Sys2Proof/Machine/Operands.lean ====
section
/-! DEFINITION. The operand forms of the commands: values in the low bits of OPA and OPB with their width
checks (R28, R91), the round index RND (R65), and the subkey a round uses (R118). -/

namespace Sys2Proof.Machine

/-- The bits above a 32-bit half are zero (R91). -/
def fitsHalf (v : Word) : Bool := v.extractLsb' 32 32 == 0

/-- The bits above a 48-bit value are zero (R91). -/
def fitsSubkey (v : Word) : Bool := v.extractLsb' 48 16 == 0

/-- The bits above a 56-bit `C ‖ D` are zero (R91). -/
def fitsHalves (v : Word) : Bool := v.extractLsb' 56 8 == 0

/-- The 48-bit operand `v[47:0]`. -/
def lo48 (v : Word) : Subkey := v.extractLsb' 0 48

/-- The 56-bit operand `v[55:0]`. -/
def lo56 (v : Word) : KeyHalves := v.extractLsb' 0 56

/-- `zext_64` (R14). -/
def zext64 {w : Nat} (v : BitVec w) : Word := v.setWidth 64

/-- The round `r = RND ∈ 1..16` that a round field selects, as an index; none outside 1..16 (R65). -/
def roundIx (rnd : BitVec 5) : Option RoundIx :=
  if h : 1 ≤ rnd.toNat ∧ rnd.toNat ≤ 16 then some ⟨rnd.toNat - 1, by omega⟩ else none

/-- `L ‖ R` (R31). -/
def block (s : State) : Word := s.l ++ s.r

/-- `L ‖ R <- v` (R31). -/
def setBlock (v : Word) (s : State) : State := { s with l := hi32 v, r := lo32 v }

/-- `ksel` of ENC: round `j` uses SK[j] (R118). -/
def kselEnc (s : State) (i : RoundIx) : Subkey := s.sk[i]

/-- `ksel` of DEC: round `j` uses SK[17 − j] (R118). -/
def kselDec (s : State) (i : RoundIx) : Subkey := s.sk[i.rev]

end Sys2Proof.Machine
end

