-- ==== Sys2Proof/Machine/Ops.lean ====
section
/-! DEFINITION. The shared operations: recording an error (the engine has no traps and no return from one,
R130, R140), completion, acceptance, reset, the key-schedule derivation, the register window, and the
life of a command from acceptance to completion (R115, R116; log entry 3). Errors are recorded and the
engine goes on (log entry 10). -/

namespace Sys2Proof.Machine

/-- The outcome type of a step. -/
abbrev Result := Host.Outcome State Fault Refusal

/-- `raise(code)` (R132): the first error sets ERR and ECODE and a later one changes nothing. -/
def raiseError (e : EngineError) (s : State) : State :=
  if s.err then s else { s with err := true, ecode := errorCode e }

/-- `complete()` (R124). -/
def complete (s : State) : State := { s with fsm := .finalized, done := true }

/-- The EXEC step of a primitive that writes RESA: with `ok` the result is written, without it
WidthViolation is raised and nothing is written; either way the command completes (R91, R123, R133). -/
def finishPrimitive (ok : Bool) (result : Word) (s : State) : State :=
  if ok then complete { s with resa := result } else complete (raiseError .widthViolation s)

/-- `accept(v)` (R115). -/
def accept (v : Word) (s : State) : State :=
  if opcOf v = 0x02 ∨ opcOf v = 0x03 then
    { s with lastcmd := v, done := false, round := 0, fsm := .initialized }
  else
    { s with lastcmd := v, done := false, fsm := .exec }

/-- Issue of a command while the engine is not busy: its word is accepted when legal and raises
IllegalCommand otherwise (R115, R135). -/
def issue (i : Instr) (s : State) : State :=
  if i.wf then accept (encode i) s else raiseError .illegalCommand s

/-- Every engine value at its reset value (R42, R143). What the outside still has to do and what the port
last returned are no state of the engine and stay. -/
def resetEngine (s : State) : State :=
  { State.reset with inputs := s.inputs, readData := s.readData }

/-- SRST: as reset, except that CONFIG keeps its value (R129, R144). -/
def softReset (s : State) : State :=
  { resetEngine s with die := s.die, eie := s.eie }

/-- `C ‖ D` (R33). -/
def halves (s : State) : KeyHalves := s.c ++ s.d

/-- `C ‖ D <- v` (R33). -/
def setHalves (v : KeyHalves) (s : State) : State := { s with c := cHalf v, d := dHalf v }

/-- `start_derivation()` (R107). -/
def startDerivation (s : State) : State :=
  { setHalves (pc1F s.key) s with kscnt := 0, fsm := .ksPc1 }

/-- The derivation step of round `i + 1` (R108): SK[r] comes from the rotated halves, and the last step
sets KV. -/
def derivationStep (i : RoundIx) (s : State) : State :=
  let cd := rotateHalves (halves s) i
  let t := setHalves cd s
  { t with
    sk := s.sk.set i.val (pc2F cd) i.isLt
    kscnt := BitVec.ofNat 5 (i.val + 1)
    fsm := .ksRot
    kv := if i.val + 1 = 16 then true else s.kv }

/-- One Feistel round on `L ‖ R` with subkey `k`, after which `n` rounds are done (R119, R120). -/
def feistelRound (k : Subkey) (n : BitVec 5) (s : State) : State :=
  { setBlock (roundF (block s) k) s with round := n, fsm := .round }

/-- The INITIALIZED step (R117). -/
def initializedStep (s : State) : State := { setBlock (ipF s.din) s with fsm := .permuted }

/-- The step after round 16 (R121). -/
def swapStep (s : State) : State := { setBlock (swapHalves (block s)) s with fsm := .swapped }

/-- The SWAPPED step (R122). -/
def swappedStep (s : State) : State := complete { s with dout := fpF (block s) }

/-- The end of a derivation (R109): back to PERMUTED for ENC and DEC, to EXEC for the others. -/
def endDerivation (cipher : Bool) (s : State) : State :=
  { s with fsm := if cipher then .permuted else .exec }

/-- The EXEC step of a command that reads or fills the subkey cache: with KV = 0 it starts a derivation,
with KV = 1 it does `use` (R107, R123). -/
def withSubkeys (use : State → Result) (s : State) : Result :=
  if s.kv then use s else .next (startDerivation s)

/-- One engine step of a running command, row by row as R116. `ksel` is the subkey choice of R118, which
only ENC and DEC have; `execStep` is the command's EXEC step (R123). A combination without a row is
stuck (log entry 9). -/
def runningStep (ksel : Option (State → RoundIx → Subkey)) (execStep : State → Result) (s : State) :
    Result :=
  match s.fsm with
  | .initialized => .next (initializedStep s)
  | .permuted =>
    if s.kv then
      match ksel with
      | some sel => .next (feistelRound (sel s 0) 1 s)
      | none => .fault .noTransition
    else .next (startDerivation s)
  | .round =>
    if h : s.round.toNat < 16 then
      match ksel with
      | some sel => .next (feistelRound (sel s ⟨s.round.toNat, h⟩) (s.round + 1) s)
      | none => .fault .noTransition
    else if s.round = 16 then .next (swapStep s)
    else .fault .noTransition
  | .swapped => .next (swappedStep s)
  | .ksPc1 =>
    if h : s.kscnt.toNat < 16 then .next (derivationStep ⟨s.kscnt.toNat, h⟩ s)
    else .fault .noTransition
  | .ksRot =>
    if h : s.kscnt.toNat < 16 then .next (derivationStep ⟨s.kscnt.toNat, h⟩ s)
    else if s.kscnt = 16 then .next (endDerivation ksel.isSome s)
    else .fault .noTransition
  | .exec => execStep s
  | .idle | .finalized => .next s

/-- The next step in the life of a command: its acceptance while the engine is not busy (R115), and its
engine step while it is (R116). -/
def commandStep (i : Instr) (ksel : Option (State → RoundIx → Subkey)) (execStep : State → Result)
    (s : State) : Result :=
  if busy s then runningStep ksel execStep s else .next (issue i s)

/-- The 64-bit value of the register at a legal offset (R46, R47, R49). -/
def readReg (off : Offset) (s : State) : Word :=
  match off.toNat with
  | 0x00 => idWord
  | 0x08 => s.lastcmd
  | 0x10 => statusWord s
  | 0x18 => configWord s
  | 0x20 => s.key
  | 0x28 => s.din
  | 0x30 => s.dout
  | 0x38 => s.opa
  | 0x40 => s.opb
  | 0x48 => s.resa
  | 0x50 => s.resb
  | 0x58 => kscdWord s
  | _ => 0

/-- A write to STATUS: the W1C bits 1 (DONE) and 3 (ERR with ECODE), every other bit ignored (R26, R52). -/
def writeStatus (v : Word) (s : State) : State :=
  { s with
    done := if v.getLsbD 1 then false else s.done
    err := if v.getLsbD 3 then false else s.err
    ecode := if v.getLsbD 3 then 0 else s.ecode }

/-- A write to CONFIG (R27, R52). -/
def writeConfig (v : Word) (s : State) : State :=
  { s with die := v.getLsbD 0, eie := v.getLsbD 1 }

/-- A write to an operand register: dropped with BusyViolation while the engine is busy, else `put`
(R52, R136, R147). -/
def operandWrite (put : State → State) (s : State) : State :=
  if busy s then raiseError .busyViolation s else put s

/-- The access is one the window answers: offset a multiple of 8, at most 0xF8, size 8 (R47, R48). -/
def legalAccess (off : Offset) (size : Nat) : Bool :=
  off.toNat % 8 = 0 && off.toNat ≤ 0xF8 && size = 8

end Sys2Proof.Machine
end

