-- ==== Sys2Proof/Machine/Control.lean ====
section
/-! DEFINITION. The control and cipher commands (spec/43_controller.md, 42_key_schedule.md R113). Each
meaning is the next step in the life of its command: acceptance while the engine is not busy, then one
engine step at a time. -/

namespace Sys2Proof.Machine

/-- The EXEC step of a command that has none (ENC and DEC never enter EXEC, R123). -/
def noExecStep (_ : State) : Result := .fault .noTransition

/-- NOP (R128). -/
def execNop (s : State) : Result :=
  commandStep .nop none (fun t => .next (complete t)) s

/-- KSD (R113). -/
def execKsd (s : State) : Result :=
  commandStep .ksd none (withSubkeys fun t => .next (complete t)) s

/-- ENC (R125), by the steps of R117 to R122 with subkeys forward. -/
def execEnc (s : State) : Result :=
  commandStep .enc (some kselEnc) noExecStep s

/-- DEC (R126), as ENC with the subkeys in reverse. -/
def execDec (s : State) : Result :=
  commandStep .dec (some kselDec) noExecStep s

/-- SRST (R129), performed in the host write itself, busy or not. -/
def execSrst (s : State) : Result := .next (softReset s)

end Sys2Proof.Machine
end

