-- ==== Sys2Proof/Machine/DataBlock.lean ====
section
/-! DEFINITION. The datapath commands (spec/41_datapath.md R93 to R104): one EXEC step on OPA and OPB into
RESA, and RESB for SPLIT. -/

namespace Sys2Proof.Machine

/-- IP (R93). -/
def execIp (s : State) : Result :=
  commandStep .ip none (fun t => .next (finishPrimitive true (ipF t.opa) t)) s

/-- FP (R94). -/
def execFp (s : State) : Result :=
  commandStep .fp none (fun t => .next (finishPrimitive true (fpF t.opa) t)) s

/-- SPLIT (R95), the only command that writes RESB. -/
def execSplit (s : State) : Result :=
  commandStep .split none
    (fun t => .next (finishPrimitive true (zext64 (hi32 t.opa)) { t with resb := zext64 (lo32 t.opa) })) s

/-- COMB (R96). -/
def execComb (s : State) : Result :=
  commandStep .comb none
    (fun t => .next (finishPrimitive (fitsHalf t.opa && fitsHalf t.opb) (lo32 t.opa ++ lo32 t.opb) t)) s

/-- SWAP (R97). -/
def execSwap (s : State) : Result :=
  commandStep .swap none (fun t => .next (finishPrimitive true (swapHalves t.opa) t)) s

/-- EXP (R98). -/
def execExp (s : State) : Result :=
  commandStep .exp none
    (fun t => .next (finishPrimitive (fitsHalf t.opa) (zext64 (eF (lo32 t.opa))) t)) s

/-- XORK (R99). -/
def execXork (s : State) : Result :=
  commandStep .xork none
    (fun t => .next (finishPrimitive (fitsSubkey t.opa && fitsSubkey t.opb)
      (zext64 (lo48 t.opa ^^^ lo48 t.opb)) t)) s

/-- SBOX (R100). -/
def execSbox (s : State) : Result :=
  commandStep .sbox none
    (fun t => .next (finishPrimitive (fitsSubkey t.opa) (zext64 (sF (lo48 t.opa))) t)) s

/-- PERMP (R101). -/
def execPermp (s : State) : Result :=
  commandStep .permp none
    (fun t => .next (finishPrimitive (fitsHalf t.opa) (zext64 (pF (lo32 t.opa))) t)) s

/-- FFN (R102). -/
def execFfn (s : State) : Result :=
  commandStep .ffn none
    (fun t => .next (finishPrimitive (fitsHalf t.opa && fitsSubkey t.opb)
      (zext64 (mangler (lo32 t.opa) (lo48 t.opb))) t)) s

/-- RNDK (R103); OPA is a full block and is not checked. -/
def execRndk (s : State) : Result :=
  commandStep .rndk none
    (fun t => .next (finishPrimitive (fitsSubkey t.opb) (roundF t.opa (lo48 t.opb)) t)) s

/-- RNDS r (R104). A round index outside 1..16 is not accepted, so it has no EXEC step. -/
def execRnds (rnd : BitVec 5) (s : State) : Result :=
  commandStep (.rnds rnd) none
    (withSubkeys fun t =>
      match roundIx rnd with
      | some i => .next (finishPrimitive true (roundF t.opa t.sk[i]) t)
      | none => .fault .noTransition) s

end Sys2Proof.Machine
end

