-- ==== Sys2Proof/Machine/KeySchedule.lean ====
section
/-! DEFINITION. The key-schedule primitives and the subkey read (spec/42_key_schedule.md R110 to R112,
R114). -/

namespace Sys2Proof.Machine

/-- PC1 (R110). -/
def execPc1 (s : State) : Result :=
  commandStep .pc1 none (fun t => .next (finishPrimitive true (zext64 (pc1F t.opa)) t)) s

/-- KSROT r (R111). A round index outside 1..16 is not accepted, so it has no EXEC step. -/
def execKsrot (rnd : BitVec 5) (s : State) : Result :=
  commandStep (.ksrot rnd) none
    (fun t =>
      match roundIx rnd with
      | some i => .next (finishPrimitive (fitsHalves t.opa) (zext64 (rotateHalves (lo56 t.opa) i)) t)
      | none => .fault .noTransition) s

/-- PC2 (R112). -/
def execPc2 (s : State) : Result :=
  commandStep .pc2 none
    (fun t => .next (finishPrimitive (fitsHalves t.opa) (zext64 (pc2F (lo56 t.opa))) t)) s

/-- SKRD r (R114). A round index outside 1..16 is not accepted, so it has no EXEC step. -/
def execSkrd (rnd : BitVec 5) (s : State) : Result :=
  commandStep (.skrd rnd) none
    (withSubkeys fun t =>
      match roundIx rnd with
      | some i => .next (finishPrimitive true (zext64 t.sk[i]) t)
      | none => .fault .noTransition) s

end Sys2Proof.Machine
end

