-- ==== Sys2Proof/Machine/Dispatch.lean ====
section
/-! DEFINITION. One arm per command: the next step in its life, from acceptance to completion
(spec/43_controller.md R115, R116, R123). -/

namespace Sys2Proof.Machine

def exec (i : Instr) (s : State) : Host.Outcome State Fault Refusal :=
  match i with
  | .nop => Sys2Proof.Machine.execNop s
  | .ksd => Sys2Proof.Machine.execKsd s
  | .enc => Sys2Proof.Machine.execEnc s
  | .dec => Sys2Proof.Machine.execDec s
  | .srst => Sys2Proof.Machine.execSrst s
  | .ip => Sys2Proof.Machine.execIp s
  | .fp => Sys2Proof.Machine.execFp s
  | .split => Sys2Proof.Machine.execSplit s
  | .comb => Sys2Proof.Machine.execComb s
  | .exp => Sys2Proof.Machine.execExp s
  | .xork => Sys2Proof.Machine.execXork s
  | .sbox => Sys2Proof.Machine.execSbox s
  | .permp => Sys2Proof.Machine.execPermp s
  | .swap => Sys2Proof.Machine.execSwap s
  | .ffn => Sys2Proof.Machine.execFfn s
  | .rndk => Sys2Proof.Machine.execRndk s
  | .rnds rnd => Sys2Proof.Machine.execRnds rnd s
  | .pc1 => Sys2Proof.Machine.execPc1 s
  | .ksrot rnd => Sys2Proof.Machine.execKsrot rnd s
  | .pc2 => Sys2Proof.Machine.execPc2 s
  | .skrd rnd => Sys2Proof.Machine.execSkrd rnd s

end Sys2Proof.Machine
end

