-- ==== Sys2Proof/Machine/Port.lean ====
section
/-! DEFINITION. The host port (spec/20_memory.md R47 to R52, 60_exceptions.md R137) and the engine's own
step (spec/43_controller.md R116). -/

namespace Sys2Proof.Machine

/-- The one word that is SRST (R129, R137). -/
def srstWord : Word := 0x0000000000000004

/-- `command_write(v)` (R137): SRST first, then the busy check, then legality, then the command. -/
def commandWrite (v : Word) (s : State) : Result :=
  if v = srstWord then exec .srst s
  else if busy s then .next (raiseError .busyViolation s)
  else
    match decodeWord v with
    | .error _ => .next (raiseError .illegalCommand s)
    | .ok i => exec i s

/-- The effect of a legal `MemWrite(off, 8, v)` (R52). -/
def writeReg (off : Offset) (v : Word) (s : State) : Result :=
  match off.toNat with
  | 0x08 => commandWrite v s
  | 0x10 => .next (writeStatus v s)
  | 0x18 => .next (writeConfig v s)
  | 0x20 => .next (operandWrite (fun t => { t with key := v, kv := false }) s)
  | 0x28 => .next (operandWrite (fun t => { t with din := v }) s)
  | 0x38 => .next (operandWrite (fun t => { t with opa := v }) s)
  | 0x40 => .next (operandWrite (fun t => { t with opb := v }) s)
  | _ => .next s

/-- `MemRead(off, size)` (R47, R51): the port returns the register, and the engine does not change. -/
def hostRead (off : Offset) (size : Nat) (s : State) : Result :=
  if legalAccess off size then .next { s with readData := some (readReg off s) }
  else .refused .busError

/-- `MemWrite(off, size, v)` (R47, R48, R52). -/
def hostWrite (off : Offset) (size : Nat) (v : Word) (s : State) : Result :=
  if legalAccess off size then writeReg off v s else .refused .busError

/-- One engine step (R116): the latched command's next step. LASTCMD holds an accepted word, so it decodes
to a command other than SRST (R25, R41); for any other value only the rows that do not ask for the
command are left (log entry 9). Without BUSY no engine step exists and nothing changes. -/
def engineStep (s : State) : Result :=
  if busy s then
    match decodeWord s.lastcmd with
    | .error _ | .ok .srst => runningStep none (fun _ => .fault .noTransition) s
    | .ok i => exec i s
  else .next s

end Sys2Proof.Machine
end

