-- ==== Sys2Proof/Machine/Step.lean ====
section
/-! DEFINITION. One step of the whole machine: a host access, the reset input, or an engine step
(spec/20_memory.md R44, R53, R56; log entry 1), and the placing of one command for the next step. -/

namespace Sys2Proof.Machine

/-- One step. The head of `inputs` says what happens; with none left the engine runs on, and stays as it
is when it is not busy (R116, R153). `WAIT` polls until BUSY = 0: the polls before it read BUSY = 1 and
change nothing (R51), so each of its steps is the engine's until the poll that reads BUSY = 0 (log entry
8). The reset input is log entry 7. -/
def step (s : State) : Host.Outcome State Fault Refusal :=
  match s.inputs with
  | [] => engineStep s
  | .read off size :: rest => hostRead off size { s with inputs := rest }
  | .write off size v :: rest => hostWrite off size v { s with inputs := rest }
  | .wait :: rest =>
    if busy s then engineStep s else .next { s with inputs := rest, readData := some (statusWord s) }
  | .engine :: rest => engineStep { s with inputs := rest }
  | .reset :: rest => .next (resetEngine { s with inputs := rest })

/-- The host's write of the word `w` (its low `nbits` bits) to CMD stands next. A word can be accepted
only while the engine is not busy (R137), so a running command counts as completed (log entry 3). -/
def State.withFetchWord (s : State) (nbits w : Nat) : State :=
  { s with
    inputs := .write 0x08 8 (BitVec.ofNat 64 (w % 2 ^ nbits)) :: s.inputs
    fsm := if busy s then .finalized else s.fsm }

end Sys2Proof.Machine
end

