-- ==== Sys2Proof/Machine/HostText.lean ====
section
/-! DEFINITION. The host's data conventions (spec/20_memory.md R60 to R63): how a host turns text into a
block or key and a block into text. They run on the host; no engine state records their errors
(R138; log entry 12). -/

namespace Sys2Proof.Machine

/-- The two host-side errors (R138). -/
inductive ParseError where
  | inputLength
  | inputEncoding
  deriving DecidableEq, Repr

/-- The code point of an ASCII character, as a byte. -/
def asciiByte (ch : Char) : BitVec 8 := BitVec.ofNat 8 ch.toNat

/-- `parse(text)` (R60): the length check first, then the encoding check; the first character is the most
significant byte. -/
def parse (text : List Char) : Except ParseError Word :=
  match text with
  | [t0, t1, t2, t3, t4, t5, t6, t7] =>
    if text.any (fun ch => decide (0x7F < ch.toNat)) then .error .inputEncoding
    else .ok (asciiByte t0 ++ asciiByte t1 ++ asciiByte t2 ++ asciiByte t3 ++
      asciiByte t4 ++ asciiByte t5 ++ asciiByte t6 ++ asciiByte t7)
  | _ => .error .inputLength

/-- `fromRaw(u64)`, the identity (R61). -/
def fromRaw (v : Word) : Word := v

/-- Byte `i` of a word, `v[63−8i : 56−8i]` (R62). -/
def byteAt (v : Word) (i : Fin 8) : BitVec 8 := v.extractLsb' (56 - 8 * i.val) 8

/-- `toText(v)` (R62): refused (`none`) when some byte is above 0x7F. -/
def toText (v : Word) : Option (List Char) :=
  let bytes := (List.finRange 8).map (byteAt v)
  if bytes.all (fun b => decide (b.toNat ≤ 0x7F)) then some (bytes.map fun b => Char.ofNat b.toNat)
  else none

/-- The upper-case hexadecimal digit of a nibble (R63). -/
def hexDigit (n : BitVec 4) : Char :=
  if n.toNat < 10 then Char.ofNat (0x30 + n.toNat) else Char.ofNat (0x41 + (n.toNat - 10))

/-- `toHexString(v)` (R63), as its eighteen characters. -/
def toHexChars (v : Word) : List Char :=
  '0' :: 'x' :: (List.finRange 16).map fun i => hexDigit (v.extractLsb' (60 - 4 * i.val) 4)

/-- `toHexString(v)` (R63). -/
def toHexString (v : Word) : String := String.ofList (toHexChars v)

end Sys2Proof.Machine
end

