-- ==== Sys2Proof/Safety.lean ====
section
/-! DEFINITION. What claims about runs are stated in: the invariants of spec/10_state.md R40 and R41 with
what a derivation and a cipher have computed so far (42_key_schedule.md R108, 43_controller.md R120), and
a run of engine steps. -/

namespace Sys2Proof.Machine

/-- ROUND and KSCNT stay in 0..16, ECODE is 0 exactly when ERR is, and LASTCMD's reserved bits are 0
(R40). -/
def RangesInv (s : State) : Prop :=
  s.round.toNat ≤ 16 ∧ s.kscnt.toNat ≤ 16 ∧ (s.ecode = 0 ↔ s.err = false) ∧ rsvOf s.lastcmd = 0

/-- KV = 1 means SK[r] = KS(x[KEY])[r] for every r (R34, R40, R107). -/
def CacheInv (s : State) : Prop :=
  s.kv = true → ∀ i : RoundIx, s.sk[i] = subkeyOf s.key i

/-- Which command may be latched in which controller state (R41). -/
def latchedIn : Fsm → Instr → Prop
  | .idle, _ | .finalized, _ => True
  | .initialized, i | .permuted, i | .round, i | .swapped, i => i = .enc ∨ i = .dec
  | .ksPc1, i | .ksRot, i =>
    i = .enc ∨ i = .dec ∨ i = .ksd ∨ (∃ rnd, i = .rnds rnd) ∨ (∃ rnd, i = .skrd rnd)
  | .exec, i => i ≠ .enc ∧ i ≠ .dec ∧ i ≠ .srst

/-- LASTCMD is a legal word, and its command is one the controller state allows (R25, R41). -/
def LatchedInv (s : State) : Prop :=
  ∃ i, decodeWord s.lastcmd = .ok i ∧ latchedIn s.fsm i

/-- FSM is one of the two derivation states. -/
def inDerivation (s : State) : Prop := s.fsm = .ksPc1 ∨ s.fsm = .ksRot

/-- While a derivation runs: C ‖ D are the halves after KSCNT stages, the first KSCNT subkeys are done, and
KV is set exactly by the last one (R107, R108). -/
def ScheduleInv (s : State) : Prop :=
  (s.fsm = .ksPc1 → s.kscnt = 0) ∧ (s.fsm = .ksRot → s.kscnt ≠ 0) ∧
  (inDerivation s →
    halves s = halvesAfter s.key s.kscnt.toNat ∧
    (∀ i : RoundIx, i.val < s.kscnt.toNat → s.sk[i] = subkeyOf s.key i) ∧
    (s.kv = true ↔ s.kscnt = 16))

/-- The command latched in LASTCMD is ENC or DEC. -/
def cipherLatched (s : State) : Prop := opcOf s.lastcmd = 0x02 ∨ opcOf s.lastcmd = 0x03

/-- The subkeys of the present KEY in the order the latched cipher command uses them (R118). -/
def cipherSubkeys (s : State) : RoundIx → Subkey :=
  if opcOf s.lastcmd = 0x03 then fun i => subkeyOf s.key i.rev else subkeyOf s.key

/-- While ENC or DEC runs: L ‖ R is the block after ROUND rounds of the present DIN and KEY, and after the
swap the swapped block (R117, R120, R121). -/
def CipherInv (s : State) : Prop :=
  (s.fsm = .initialized → s.round = 0) ∧
  (s.fsm = .permuted ∨ (inDerivation s ∧ cipherLatched s) → s.round = 0 ∧ block s = ipF s.din) ∧
  (s.fsm = .round → s.kv = true ∧ s.round ≠ 0 ∧
    block s = roundsF (cipherSubkeys s) (ipF s.din) s.round.toNat) ∧
  (s.fsm = .swapped → s.kv = true ∧ s.round = 16 ∧
    block s = swapHalves (roundsF (cipherSubkeys s) (ipF s.din) 16))

/-- The invariant of every reachable state. -/
structure EngineInv (s : State) : Prop where
  ranges : RangesInv s
  cache : CacheInv s
  latched : LatchedInv s
  schedule : ScheduleInv s
  cipher : CipherInv s

/-- The input is the host's SRST or the reset input: what abandons a running command (R144, R147). -/
def abandons : Input → Prop
  | .write off size v => off = 0x08 ∧ size = 8 ∧ v = srstWord
  | .reset => True
  | .read _ _ | .wait | .engine => False

/-- The input is an access the window answers, or none at all (R47). -/
def answered : Input → Prop
  | .read off size | .write off size _ => legalAccess off size = true
  | .wait | .engine | .reset => True

/-- A primitive command has completed with RESA = `v` and nothing else changed (R90, R124). -/
def finishedWith (v : Word) (s : State) : State :=
  { s with resa := v, done := true, fsm := .finalized }

/-- A primitive command has ended in WidthViolation: no result written, the first error kept (R132, R133). -/
def endedInWidthViolation (s : State) : State :=
  { s with
    err := true
    ecode := if s.err then s.ecode else 1
    done := true
    fsm := .finalized }

/-- `start_derivation()` has run (R107), written out. -/
def derivationStarted (s : State) : State :=
  { s with
    c := (pc1F s.key).extractLsb' 28 28
    d := (pc1F s.key).extractLsb' 0 28
    kscnt := 0
    fsm := .ksPc1 }

/-- Engine steps of a command from its acceptance to its completion (R152), by the value of KV when the
command reaches the step that checks it. -/
def stepCount (i : Instr) (kv : Bool) : Nat :=
  match i with
  | .enc | .dec => if kv then 19 else 37
  | .ksd | .rnds _ | .skrd _ => if kv then 1 else 19
  | .srst => 0
  | .nop | .ip | .fp | .split | .comb | .exp | .xork | .sbox | .permp | .swap | .ffn | .rndk
  | .pc1 | .ksrot _ | .pc2 => 1

/-- `n` steps of the machine from `s` end in `t`, with no stop before. -/
def runsTo (n : Nat) (s t : State) : Prop := Host.Core.run Sys2Proof.core n s = .next t

end Sys2Proof.Machine
end

