-- ==== Sys2Proof/Certificates/Slice0/Obligations.lean ====
section
/-! DEFINITION. The statements for the provers. A statement of a command's result gives its whole next
state, so that it is the result, the frame and the completion of the command at once. -/

open Sys2Proof Sys2Proof.Machine

/-! ### Encoding -/

/-- R64, R67: every row of the opcode map, its word written out as RSV, RND, OPC. -/
def Obligations.OpcodeMapWordsDecode : Prop :=
  decodeWord 0x0000000000000000 = .ok .nop ∧ decodeWord 0x0000000000000001 = .ok .ksd ∧
  decodeWord 0x0000000000000002 = .ok .enc ∧ decodeWord 0x0000000000000003 = .ok .dec ∧
  decodeWord 0x0000000000000004 = .ok .srst ∧ decodeWord 0x0000000000000010 = .ok .ip ∧
  decodeWord 0x0000000000000011 = .ok .fp ∧ decodeWord 0x0000000000000012 = .ok .split ∧
  decodeWord 0x0000000000000013 = .ok .comb ∧ decodeWord 0x0000000000000014 = .ok .exp ∧
  decodeWord 0x0000000000000015 = .ok .xork ∧ decodeWord 0x0000000000000016 = .ok .sbox ∧
  decodeWord 0x0000000000000017 = .ok .permp ∧ decodeWord 0x0000000000000018 = .ok .swap ∧
  decodeWord 0x0000000000000019 = .ok .ffn ∧ decodeWord 0x000000000000001A = .ok .rndk ∧
  decodeWord 0x0000000000000020 = .ok .pc1 ∧ decodeWord 0x0000000000000022 = .ok .pc2 ∧
  ∀ rnd : BitVec 5, 1 ≤ rnd.toNat → rnd.toNat ≤ 16 →
    decodeWord ((0 : BitVec 51) ++ rnd ++ (0x1B : BitVec 8)) = .ok (.rnds rnd) ∧
    decodeWord ((0 : BitVec 51) ++ rnd ++ (0x21 : BitVec 8)) = .ok (.ksrot rnd) ∧
    decodeWord ((0 : BitVec 51) ++ rnd ++ (0x23 : BitVec 8)) = .ok (.skrd rnd)

/-- R68: a word decodes exactly when it is legal. -/
def Obligations.LegalWordsAreTheOnesThatDecode : Prop :=
  ∀ v : Word, (∃ i, decodeWord v = .ok i) ↔
    v.extractLsb' 13 51 = 0 ∧
    ((v.extractLsb' 0 8).toNat ≤ 0x04 ∨
      (0x10 ≤ (v.extractLsb' 0 8).toNat ∧ (v.extractLsb' 0 8).toNat ≤ 0x1B) ∨
      (0x20 ≤ (v.extractLsb' 0 8).toNat ∧ (v.extractLsb' 0 8).toNat ≤ 0x23)) ∧
    (if v.extractLsb' 0 8 = 0x1B ∨ v.extractLsb' 0 8 = 0x21 ∨ v.extractLsb' 0 8 = 0x23
      then 1 ≤ (v.extractLsb' 8 5).toNat ∧ (v.extractLsb' 8 5).toNat ≤ 16
      else v.extractLsb' 8 5 = 0)

/-- R64, R67: decoding the encoding of a well-formed command gives the command, round index included. -/
def Obligations.DecodeOfEncodeIsTheCommand : Prop :=
  ∀ i : Instr, i.wf = true → decodeWord (encode i) = .ok i

/-- R64, R68: every word that decodes is the encoding of the command it decodes to, which is well formed:
no two words are the same command and no bit of a word is ignored. -/
def Obligations.EncodeOfDecodeIsTheWord : Prop :=
  ∀ (v : Word) (i : Instr), decodeWord v = .ok i → i.wf = true ∧ encode i = v

/-! ### The step, acceptance and the host port -/

/-- A host write of a decodable word to CMD, with the engine not busy, runs the decoded command; an
engine turn while busy runs the latched command; with the engine not busy nothing moves (R116, R124), with
no input left, on an engine turn, and under WAIT but for the one read of STATUS (R70); and the word that
`withFetchWord` places is the one the next step runs. The list of inputs is log entry 1, a command as
acceptance and then engine steps of `exec` is log entry 3, the form of WAIT is log entry 8. -/
def Obligations.StepRunsTheDecodedCommand : Prop :=
  (∀ (s : State) (v : Word) (i : Instr) (rest : List Input),
    s.inputs = .write 0x08 8 v :: rest → busy s = false → decodeWord v = .ok i →
    step s = exec i { s with inputs := rest }) ∧
  (∀ (s : State) (i : Instr),
    busy s = true → decodeWord s.lastcmd = .ok i → i ≠ .srst →
    (s.inputs = [] → step s = exec i s) ∧
    (∀ rest, s.inputs = .wait :: rest → step s = exec i s) ∧
    (∀ rest, s.inputs = .engine :: rest → step s = exec i { s with inputs := rest })) ∧
  (∀ s : State, busy s = false →
    (s.inputs = [] → step s = .next s) ∧
    (∀ rest, s.inputs = .engine :: rest → step s = .next { s with inputs := rest }) ∧
    (∀ rest, s.inputs = .wait :: rest →
      step s = .next { s with inputs := rest, readData := some (statusWord s) })) ∧
  (∀ (s : State) (n w : Nat) (i : Instr), decodeTableWord n w = some i →
    step (s.withFetchWord n w) = exec i { s with fsm := if busy s then .finalized else s.fsm })

/-- R115: acceptance latches the word, clears DONE, enters INITIALIZED with ROUND 0 (ENC, DEC) or EXEC (the
others), and changes nothing else; ERR set does not stop it. -/
def Obligations.AcceptanceLatchesAndChangesNothingElse : Prop :=
  ∀ (i : Instr) (s : State), i.wf = true → i ≠ .srst → busy s = false →
    exec i s = .next { s with
      lastcmd := encode i
      done := false
      round := if i = .enc ∨ i = .dec then 0 else s.round
      fsm := if i = .enc ∨ i = .dec then .initialized else .exec }

/-- R137: a write to CMD is resolved as SRST, else BusyViolation, else IllegalCommand, else acceptance, and
raises at most one error; a dropped word changes only ERR and ECODE. -/
def Obligations.CommandWriteIsResolvedInOrder : Prop :=
  ∀ (s : State) (v : Word) (rest : List Input), s.inputs = .write 0x08 8 v :: rest →
    step s = .next
      (if v = 0x0000000000000004 then
        { State.reset with die := s.die, eie := s.eie, inputs := rest, readData := s.readData }
      else if busy s = true then
        { s with inputs := rest, err := true, ecode := if s.err then s.ecode else 3 }
      else if legal v = false then
        { s with inputs := rest, err := true, ecode := if s.err then s.ecode else 2 }
      else accept v { s with inputs := rest })

/-- R132: `raise` records the first error only; ERR and ECODE are cleared by a write to STATUS with bit 3
set, by SRST and by reset, and by nothing else; a recorded error does not keep a command from being
accepted. -/
def Obligations.FirstErrorStaysUntilCleared : Prop :=
  (∀ (e : EngineError) (s : State),
    (s.err = false → raiseError e s = { s with err := true, ecode := errorCode e }) ∧
    (s.err = true → raiseError e s = s)) ∧
  (∀ s t : State, step s = .next t → s.err = true →
    (t.err = true → t.ecode = s.ecode) ∧
    (t.err = false → ∃ inp rest, s.inputs = inp :: rest ∧
      (abandons inp ∨ ∃ v, inp = .write 0x10 8 v ∧ v.getLsbD 3 = true))) ∧
  (∀ (s : State) (inp : Input) (rest : List Input), s.inputs = inp :: rest →
    (abandons inp ∨ ∃ v, inp = .write 0x10 8 v ∧ v.getLsbD 3 = true) →
    ∃ t, step s = .next t ∧ t.err = false ∧ t.ecode = 0) ∧
  (∀ (i : Instr) (s : State), i.wf = true → i ≠ .srst → busy s = false → s.err = true →
    ∃ t, exec i s = .next t ∧ busy t = true ∧ t.lastcmd = encode i ∧ t.err = true ∧ t.ecode = s.ecode) ∧
  errorCode .widthViolation = 1 ∧ errorCode .illegalCommand = 2 ∧ errorCode .busyViolation = 3

/-- R46, R47, R49, R51: a legal read returns the register at its offset, 0 at a reserved one, and changes
nothing of the engine. -/
def Obligations.LegalReadReturnsTheRegister : Prop :=
  ∀ (s : State) (off : Offset) (rest : List Input),
    s.inputs = .read off 8 :: rest → off.toNat % 8 = 0 →
    step s = .next { s with
      inputs := rest
      readData := some
        (if off = 0x00 then 0x0000000044455301
         else if off = 0x08 then s.lastcmd
         else if off = 0x10 then statusWord s
         else if off = 0x18 then configWord s
         else if off = 0x20 then s.key
         else if off = 0x28 then s.din
         else if off = 0x30 then s.dout
         else if off = 0x38 then s.opa
         else if off = 0x40 then s.opb
         else if off = 0x48 then s.resa
         else if off = 0x50 then s.resb
         else if off = 0x58 then kscdWord s
         else 0) }

/-- R26, R27, R30, R35: the fields of STATUS, CONFIG and KSCD at their bits, reserved bits 0, BUSY as FSM
says, and the nine codes of R35 in the FSM field. -/
def Obligations.StatusConfigAndKscdFields : Prop :=
  ∀ s : State,
    ((statusWord s).getLsbD 0 = true ↔ s.fsm ≠ .idle ∧ s.fsm ≠ .finalized) ∧
    (statusWord s).getLsbD 1 = s.done ∧ (statusWord s).getLsbD 2 = s.kv ∧
    (statusWord s).getLsbD 3 = s.err ∧ (statusWord s).extractLsb' 4 4 = 0 ∧
    (statusWord s).extractLsb' 8 4 = s.ecode ∧ (statusWord s).extractLsb' 12 4 = 0 ∧
    (s.fsm = .idle → (statusWord s).extractLsb' 16 4 = 0) ∧
    (s.fsm = .initialized → (statusWord s).extractLsb' 16 4 = 1) ∧
    (s.fsm = .permuted → (statusWord s).extractLsb' 16 4 = 2) ∧
    (s.fsm = .round → (statusWord s).extractLsb' 16 4 = 3) ∧
    (s.fsm = .swapped → (statusWord s).extractLsb' 16 4 = 4) ∧
    (s.fsm = .finalized → (statusWord s).extractLsb' 16 4 = 5) ∧
    (s.fsm = .ksPc1 → (statusWord s).extractLsb' 16 4 = 6) ∧
    (s.fsm = .ksRot → (statusWord s).extractLsb' 16 4 = 7) ∧
    (s.fsm = .exec → (statusWord s).extractLsb' 16 4 = 8) ∧
    (statusWord s).extractLsb' 20 4 = 0 ∧
    (statusWord s).extractLsb' 24 5 = s.round ∧ (statusWord s).extractLsb' 29 3 = 0 ∧
    (statusWord s).extractLsb' 32 5 = s.kscnt ∧ (statusWord s).extractLsb' 37 27 = 0 ∧
    (configWord s).getLsbD 0 = s.die ∧ (configWord s).getLsbD 1 = s.eie ∧
    (configWord s).extractLsb' 2 62 = 0 ∧
    (kscdWord s).extractLsb' 28 28 = s.c ∧ (kscdWord s).extractLsb' 0 28 = s.d ∧
    (kscdWord s).extractLsb' 56 8 = 0

/-- R49, R50, R52: what a legal write does at every offset; the CMD case is `command_write` of R137. -/
def Obligations.LegalWriteEffects : Prop :=
  ∀ (s : State) (off : Offset) (v : Word) (rest : List Input),
    s.inputs = .write off 8 v :: rest → off.toNat % 8 = 0 →
    (off = 0x08 → step s = commandWrite v { s with inputs := rest }) ∧
    (off = 0x10 → step s = .next { s with
      inputs := rest
      done := s.done && !v.getLsbD 1
      err := s.err && !v.getLsbD 3
      ecode := if v.getLsbD 3 then 0 else s.ecode }) ∧
    (off = 0x18 → step s = .next { s with inputs := rest, die := v.getLsbD 0, eie := v.getLsbD 1 }) ∧
    (off = 0x20 → busy s = false → step s = .next { s with inputs := rest, key := v, kv := false }) ∧
    (off = 0x28 → busy s = false → step s = .next { s with inputs := rest, din := v }) ∧
    (off = 0x38 → busy s = false → step s = .next { s with inputs := rest, opa := v }) ∧
    (off = 0x40 → busy s = false → step s = .next { s with inputs := rest, opb := v }) ∧
    (off = 0x20 ∨ off = 0x28 ∨ off = 0x38 ∨ off = 0x40 → busy s = true →
      step s = .next { s with inputs := rest, err := true, ecode := if s.err then s.ecode else 3 }) ∧
    (off = 0x00 ∨ off = 0x30 ∨ off = 0x48 ∨ off = 0x50 ∨ off = 0x58 ∨ 0x60 ≤ off.toNat →
      step s = .next { s with inputs := rest })

/-- R48 and 93_implementation_defined.md I2: a misaligned access, or one of a size other than 8 bytes, is
refused as a bus error in every state. That it is a refusal is log entry 4. -/
def Obligations.MisalignedOrNarrowAccessIsABusError : Prop :=
  ∀ (s : State) (off : Offset) (size : Nat) (v : Word) (rest : List Input),
    off.toNat % 8 ≠ 0 ∨ size ≠ 8 →
    (s.inputs = .read off size :: rest → step s = .refused .busError) ∧
    (s.inputs = .write off size v :: rest → step s = .refused .busError)

/-- R139: IRQ is the level (DONE and DIE) or (ERR and EIE); clearing both STATUS bits, masking both
sources, reset and SRST drop it; accepting a command drops the done source. -/
def Obligations.IrqFollowsDoneAndErr : Prop :=
  (∀ s : State, irq s = true ↔ (s.done = true ∧ s.die = true) ∨ (s.err = true ∧ s.eie = true)) ∧
  (∀ (s : State) (v : Word) (rest : List Input),
    s.inputs = .write 0x10 8 v :: rest → v.getLsbD 1 = true → v.getLsbD 3 = true →
    ∃ t, step s = .next t ∧ irq t = false) ∧
  (∀ (s : State) (v : Word) (rest : List Input),
    s.inputs = .write 0x18 8 v :: rest → v.getLsbD 0 = false → v.getLsbD 1 = false →
    ∃ t, step s = .next t ∧ irq t = false) ∧
  (∀ (i : Instr) (s : State), i.wf = true → busy s = false → s.err = false →
    ∃ t, exec i s = .next t ∧ irq t = false) ∧
  (∀ (s : State) (rest : List Input), s.inputs = .reset :: rest →
    ∃ t, step s = .next t ∧ irq t = false) ∧
  (∀ s : State, ∃ t, exec .srst s = .next t ∧ irq t = false)

/-! ### Reset -/

/-- R42, R143: the reset value of every piece of state, as values and as the port shows them. -/
def Obligations.ResetValuesOfEveryRegister : Prop :=
  State.reset.key = 0 ∧ State.reset.din = 0 ∧ State.reset.dout = 0 ∧ State.reset.lastcmd = 0 ∧
  State.reset.opa = 0 ∧ State.reset.opb = 0 ∧ State.reset.resa = 0 ∧ State.reset.resb = 0 ∧
  State.reset.done = false ∧ State.reset.kv = false ∧ State.reset.err = false ∧
  State.reset.ecode = 0 ∧ State.reset.fsm = .idle ∧ State.reset.round = 0 ∧ State.reset.kscnt = 0 ∧
  State.reset.die = false ∧ State.reset.eie = false ∧ State.reset.c = 0 ∧ State.reset.d = 0 ∧
  State.reset.l = 0 ∧ State.reset.r = 0 ∧ (∀ i : RoundIx, State.reset.sk[i] = 0) ∧
  busy State.reset = false ∧ irq State.reset = false ∧ statusWord State.reset = 0 ∧
  configWord State.reset = 0 ∧ kscdWord State.reset = 0 ∧ idWord = 0x0000000044455301

/-- R143: the reset input gives every piece of state its reset value at once, whatever the engine was
doing; an engine turn after it does nothing. The form of the input is log entry 7. -/
def Obligations.ResetInputGivesTheResetState : Prop :=
  (∀ (s : State) (rest : List Input), s.inputs = .reset :: rest →
    step s = .next { State.reset with inputs := rest, readData := s.readData }) ∧
  (∀ (s : State) (rest : List Input), s.inputs = .reset :: .engine :: rest →
    runsTo 2 s { State.reset with inputs := rest, readData := s.readData })

/-- R129, R144: SRST gives the reset state except CONFIG, in the host write itself, busy or not, and only
the exact word is SRST. -/
def Obligations.SoftResetKeepsOnlyConfig : Prop :=
  (∀ s : State, exec .srst s = .next
    { State.reset with die := s.die, eie := s.eie, inputs := s.inputs, readData := s.readData }) ∧
  (∀ (s : State) (rest : List Input), s.inputs = .write 0x08 8 0x0000000000000004 :: rest →
    step s = .next
      { State.reset with die := s.die, eie := s.eie, inputs := rest, readData := s.readData }) ∧
  (∀ v : Word, decodeWord v = .ok .srst ↔ v = 0x0000000000000004)

/-! ### Control commands -/

/-- R128: NOP is the all-zero word, is accepted into EXEC, its EXEC step completes and does nothing else,
and while the engine is busy it is dropped with BusyViolation. -/
def Obligations.NopCommand : Prop :=
  decodeWord 0x0000000000000000 = .ok .nop ∧
  (∀ s : State, busy s = false → exec .nop s = .next { s with lastcmd := 0, done := false, fsm := .exec }) ∧
  (∀ (s : State) (rest : List Input), s.inputs = .write 0x08 8 0 :: rest → busy s = true →
    step s = .next { s with inputs := rest, err := true, ecode := if s.err then s.ecode else 3 }) ∧
  (∀ s : State, s.fsm = .exec → exec .nop s = .next { s with done := true, fsm := .finalized })

/-- R113 with R107 and R123: KSD's EXEC step starts a derivation with KV = 0 and completes with KV = 1,
changing no subkey. -/
def Obligations.KsdCommand : Prop :=
  decodeWord 0x0000000000000001 = .ok .ksd ∧
  (∀ s : State, s.fsm = .exec → s.kv = false → exec .ksd s = .next (derivationStarted s)) ∧
  (∀ s : State, s.fsm = .exec → s.kv = true →
    exec .ksd s = .next { s with done := true, fsm := .finalized })

/-! ### Datapath commands -/

/-- R93: IP, and each bit of its result as the table says (R71, R12, R13). -/
def Obligations.IpCommand : Prop :=
  decodeWord 0x0000000000000010 = .ok .ip ∧
  (∀ s : State, s.fsm = .exec → exec .ip s = .next (finishedWith (ipF s.opa) s)) ∧
  (∀ (v : Word) (j : Fin 64),
    (ipF v).getLsbD (63 - j.val) = v.getLsbD (64 - tableIP.getD j.val 0))

/-- R94: FP, and each bit of its result as the table says (R72, R12, R13). -/
def Obligations.FpCommand : Prop :=
  decodeWord 0x0000000000000011 = .ok .fp ∧
  (∀ s : State, s.fsm = .exec → exec .fp s = .next (finishedWith (fpF s.opa) s)) ∧
  (∀ (v : Word) (j : Fin 64),
    (fpF v).getLsbD (63 - j.val) = v.getLsbD (64 - tableFP.getD j.val 0))

/-- R95: SPLIT, and it is the only command that writes RESB (SRST, which resets it, aside). -/
def Obligations.SplitCommandAloneWritesResb : Prop :=
  decodeWord 0x0000000000000012 = .ok .split ∧
  (∀ s : State, s.fsm = .exec → exec .split s = .next { s with
    resa := (s.opa.extractLsb' 32 32).setWidth 64
    resb := (s.opa.extractLsb' 0 32).setWidth 64
    done := true
    fsm := .finalized }) ∧
  (∀ (i : Instr) (s t : State), i ≠ .split → i ≠ .srst → exec i s = .next t → t.resb = s.resb)

/-- R96: COMB, and WidthViolation when either operand has more than 32 bits. -/
def Obligations.CombCommand : Prop :=
  decodeWord 0x0000000000000013 = .ok .comb ∧
  (∀ s : State, s.fsm = .exec → s.opa.extractLsb' 32 32 = 0 → s.opb.extractLsb' 32 32 = 0 →
    exec .comb s = .next (finishedWith (s.opa.extractLsb' 0 32 ++ s.opb.extractLsb' 0 32) s)) ∧
  (∀ s : State, s.fsm = .exec → s.opa.extractLsb' 32 32 ≠ 0 ∨ s.opb.extractLsb' 32 32 ≠ 0 →
    exec .comb s = .next (endedInWidthViolation s))

/-- R97: SWAP. -/
def Obligations.SwapCommand : Prop :=
  decodeWord 0x0000000000000018 = .ok .swap ∧
  (∀ s : State, s.fsm = .exec →
    exec .swap s = .next (finishedWith (s.opa.extractLsb' 0 32 ++ s.opa.extractLsb' 32 32) s)) ∧
  (∀ v : Word, swapHalves (swapHalves v) = v) ∧
  (∀ h : Half, swapHalves (h ++ h) = h ++ h)

/-- R98: EXP, each bit of its result as the table says (R74), and WidthViolation when the upper 32 bits are
not zero. -/
def Obligations.ExpCommand : Prop :=
  decodeWord 0x0000000000000014 = .ok .exp ∧
  (∀ s : State, s.fsm = .exec → s.opa.extractLsb' 32 32 = 0 →
    exec .exp s = .next (finishedWith ((eF (s.opa.extractLsb' 0 32)).setWidth 64) s)) ∧
  (∀ s : State, s.fsm = .exec → s.opa.extractLsb' 32 32 ≠ 0 →
    exec .exp s = .next (endedInWidthViolation s)) ∧
  (∀ (r : Half) (j : Fin 48), (eF r).getLsbD (47 - j.val) = r.getLsbD (32 - tableE.getD j.val 0)) ∧
  eF 0xF0F0F0F0 = 0x7A17A17A17A1

/-- R99: XORK, and WidthViolation when either operand has a bit above bit 47. -/
def Obligations.XorkCommand : Prop :=
  decodeWord 0x0000000000000015 = .ok .xork ∧
  (∀ s : State, s.fsm = .exec → s.opa.extractLsb' 48 16 = 0 → s.opb.extractLsb' 48 16 = 0 →
    exec .xork s = .next (finishedWith (s.opa ^^^ s.opb) s)) ∧
  (∀ s : State, s.fsm = .exec → s.opa.extractLsb' 48 16 ≠ 0 ∨ s.opb.extractLsb' 48 16 ≠ 0 →
    exec .xork s = .next (endedInWidthViolation s))

/-- R100 (with R79, R88): SBOX, group `i` of the operand through S-box `i`, and WidthViolation above bit
47. -/
def Obligations.SboxCommand : Prop :=
  decodeWord 0x0000000000000016 = .ok .sbox ∧
  (∀ s : State, s.fsm = .exec → s.opa.extractLsb' 48 16 = 0 →
    exec .sbox s = .next (finishedWith ((sF (s.opa.extractLsb' 0 48)).setWidth 64) s)) ∧
  (∀ s : State, s.fsm = .exec → s.opa.extractLsb' 48 16 ≠ 0 →
    exec .sbox s = .next (endedInWidthViolation s)) ∧
  (∀ (x : Subkey) (i : Fin 8),
    ((sF x).extractLsb' (28 - 4 * i.val) 4).toNat =
      ((([tableS1, tableS2, tableS3, tableS4, tableS5, tableS6, tableS7, tableS8].getD i.val []).getD
        (2 * (x.extractLsb' (47 - 6 * i.val) 1).toNat + (x.extractLsb' (42 - 6 * i.val) 1).toNat)
        []).getD (x.extractLsb' (43 - 6 * i.val) 4).toNat 0)) ∧
  sF 0x965A847DCBD6 = 0x8AFE657E

/-- R101: PERMP, each bit of its result as the table says (R75), and WidthViolation above bit 31. -/
def Obligations.PermpCommand : Prop :=
  decodeWord 0x0000000000000017 = .ok .permp ∧
  (∀ s : State, s.fsm = .exec → s.opa.extractLsb' 32 32 = 0 →
    exec .permp s = .next (finishedWith ((pF (s.opa.extractLsb' 0 32)).setWidth 64) s)) ∧
  (∀ s : State, s.fsm = .exec → s.opa.extractLsb' 32 32 ≠ 0 →
    exec .permp s = .next (endedInWidthViolation s)) ∧
  (∀ (v : Half) (j : Fin 32), (pF v).getLsbD (31 - j.val) = v.getLsbD (32 - tableP.getD j.val 0)) ∧
  pF 0x8AFE657E = 0x4EDF35EC

/-- R102 (with R92): FFN and its two width checks. -/
def Obligations.FfnCommand : Prop :=
  decodeWord 0x0000000000000019 = .ok .ffn ∧
  (∀ s : State, s.fsm = .exec → s.opa.extractLsb' 32 32 = 0 → s.opb.extractLsb' 48 16 = 0 →
    exec .ffn s = .next
      (finishedWith ((pF (sF (eF (s.opa.extractLsb' 0 32) ^^^ s.opb.extractLsb' 0 48))).setWidth 64) s)) ∧
  (∀ s : State, s.fsm = .exec → s.opa.extractLsb' 32 32 ≠ 0 ∨ s.opb.extractLsb' 48 16 ≠ 0 →
    exec .ffn s = .next (endedInWidthViolation s)) ∧
  mangler 0x18CA18AD 0x194CD072DE8C = 0x4EDF35EC

/-- R103 (with R92): RNDK, whose OPA is not checked, and WidthViolation when OPB has a bit above bit 47. -/
def Obligations.RndkCommand : Prop :=
  decodeWord 0x000000000000001A = .ok .rndk ∧
  (∀ s : State, s.fsm = .exec → s.opb.extractLsb' 48 16 = 0 →
    exec .rndk s = .next (finishedWith
      (s.opa.extractLsb' 0 32 ++
        (s.opa.extractLsb' 32 32 ^^^ mangler (s.opa.extractLsb' 0 32) (s.opb.extractLsb' 0 48))) s)) ∧
  (∀ s : State, s.fsm = .exec → s.opb.extractLsb' 48 16 ≠ 0 →
    exec .rndk s = .next (endedInWidthViolation s)) ∧
  (∀ (b : Word) (k : Subkey), (roundF b k).extractLsb' 32 32 = b.extractLsb' 0 32) ∧
  roundF 0x14A7D67818CA18AD 0x194CD072DE8C = 0x18CA18AD5A78E394

/-- R104 with R107 and R135: RNDS r uses SK[r] when KV = 1 and starts a derivation when KV = 0; a round
index outside 1..16 is rejected at issue as IllegalCommand. -/
def Obligations.RndsCommand : Prop :=
  (∀ (s : State) (i : RoundIx), s.fsm = .exec → s.kv = true →
    exec (.rnds (BitVec.ofNat 5 (i.val + 1))) s = .next (finishedWith (roundF s.opa s.sk[i]) s)) ∧
  (∀ (s : State) (rnd : BitVec 5), s.fsm = .exec → s.kv = false →
    exec (.rnds rnd) s = .next (derivationStarted s)) ∧
  (∀ (s : State) (rnd : BitVec 5), roundInRange rnd = false → busy s = false →
    exec (.rnds rnd) s = .next { s with err := true, ecode := if s.err then s.ecode else 2 })

/-- R110: PC1, each bit of its result as the table says (R76), and the parity positions of the key have no
effect. -/
def Obligations.Pc1Command : Prop :=
  decodeWord 0x0000000000000020 = .ok .pc1 ∧
  (∀ s : State, s.fsm = .exec → exec .pc1 s = .next (finishedWith ((pc1F s.opa).setWidth 64) s)) ∧
  (∀ (k : Word) (j : Fin 56), (pc1F k).getLsbD (55 - j.val) = k.getLsbD (64 - tablePC1.getD j.val 0)) ∧
  (∀ (k : Word) (j : Fin 8), pc1F (k ^^^ (1#64 <<< (8 * j.val))) = pc1F k) ∧
  pc1F 0 = 0 ∧ pc1F 0xFFFFFFFFFFFFFFFF = 0xFFFFFFFFFFFFFF ∧
  pc1F 0xAABB09182736CCDD = 0xC3C033A33F0CFA ∧ pc1F 0x0000FFFFFFFFFFFF = 0xFCFCFCFFCFCFCC

/-- R111 (with R78): KSROT r turns each half by shift(r) on its own, checks bits 63..56, and rejects a round
index outside 1..16 at issue; sixteen stages make a full turn. -/
def Obligations.KsrotCommand : Prop :=
  (∀ (s : State) (i : RoundIx), s.fsm = .exec → s.opa.extractLsb' 56 8 = 0 →
    exec (.ksrot (BitVec.ofNat 5 (i.val + 1))) s = .next (finishedWith
      (((s.opa.extractLsb' 28 28).rotateLeft
          (if i.val + 1 = 1 ∨ i.val + 1 = 2 ∨ i.val + 1 = 9 ∨ i.val + 1 = 16 then 1 else 2) ++
        (s.opa.extractLsb' 0 28).rotateLeft
          (if i.val + 1 = 1 ∨ i.val + 1 = 2 ∨ i.val + 1 = 9 ∨ i.val + 1 = 16 then 1 else 2)
        : BitVec 56).setWidth 64) s)) ∧
  (∀ (s : State) (i : RoundIx), s.fsm = .exec → s.opa.extractLsb' 56 8 ≠ 0 →
    exec (.ksrot (BitVec.ofNat 5 (i.val + 1))) s = .next (endedInWidthViolation s)) ∧
  (∀ (s : State) (rnd : BitVec 5), roundInRange rnd = false → busy s = false →
    exec (.ksrot rnd) s = .next { s with err := true, ecode := if s.err then s.ecode else 2 }) ∧
  (∀ cd : KeyHalves, (List.finRange 16).foldl rotateHalves cd = cd)

/-- R112 (with R77): PC2, WidthViolation above bit 55, and the eight unused positions have no effect. -/
def Obligations.Pc2Command : Prop :=
  decodeWord 0x0000000000000022 = .ok .pc2 ∧
  (∀ s : State, s.fsm = .exec → s.opa.extractLsb' 56 8 = 0 →
    exec .pc2 s = .next (finishedWith ((pc2F (s.opa.extractLsb' 0 56)).setWidth 64) s)) ∧
  (∀ s : State, s.fsm = .exec → s.opa.extractLsb' 56 8 ≠ 0 →
    exec .pc2 s = .next (endedInWidthViolation s)) ∧
  (∀ (cd : KeyHalves) (j : Fin 48),
    (pc2F cd).getLsbD (47 - j.val) = cd.getLsbD (56 - tablePC2.getD j.val 0)) ∧
  (∀ (cd : KeyHalves) (p : Nat), p ∈ [9, 18, 22, 25, 35, 38, 43, 54] →
    pc2F (cd ^^^ (1#56 <<< (56 - p))) = pc2F cd) ∧
  pc2F 0x878067567E19F4 = 0x194CD072DE8C

/-- R114 with R107 and R135: SKRD r reads SK[r] when KV = 1 and starts a derivation when KV = 0; a round
index outside 1..16 is rejected at issue as IllegalCommand. -/
def Obligations.SkrdCommand : Prop :=
  (∀ (s : State) (i : RoundIx), s.fsm = .exec → s.kv = true →
    exec (.skrd (BitVec.ofNat 5 (i.val + 1))) s = .next (finishedWith (s.sk[i].setWidth 64) s)) ∧
  (∀ (s : State) (rnd : BitVec 5), s.fsm = .exec → s.kv = false →
    exec (.skrd rnd) s = .next (derivationStarted s)) ∧
  (∀ (s : State) (rnd : BitVec 5), roundInRange rnd = false → busy s = false →
    exec (.skrd rnd) s = .next { s with err := true, ecode := if s.err then s.ecode else 2 })

/-- What the spec itself derives of the datapath commands (its marks `derived` in R73, R93 to R102, R104):
a single bit of a block moves to a single bit under IP, corner values, SPLIT and then COMB with its two
results as operands give the block back without an error, FFN as EXP, XORK, SBOX and PERMP run one after
another with OPA the previous RESA, and sixteen RNDS commands as the controller's rounds. -/
def Obligations.DatapathPropertiesTheSpecDerives : Prop :=
  (∀ i : Fin 64, ∃ j : Fin 64, ipF (1#64 <<< i.val) = 1#64 <<< j.val) ∧
  ipF 0 = 0 ∧ ipF 0xFFFFFFFFFFFFFFFF = 0xFFFFFFFFFFFFFFFF ∧ ipF 1 = 0x0000008000000000 ∧
  ipF 0x123456ABCD132536 = 0x14A7D67818CA18AD ∧
  fpF 1 = 0x0200000000000000 ∧ fpF 0x19BA9212CF26B472 = 0xC0B7A8D05F3A829C ∧
  (∀ s : State, s.fsm = .exec →
    ∃ t u : State,
      exec .split s = .next t ∧
      exec .comb { t with fsm := .exec, opa := t.resa, opb := t.resb } = .next u ∧
      u.resa = s.opa ∧ u.err = s.err) ∧
  swapHalves 0xCF26B47219BA9212 = 0x19BA9212CF26B472 ∧
  eF 0x00000001 = 0x800000000002 ∧ eF 0x80000000 = 0x400000000001 ∧ eF 0xFFFFFFFF = 0xFFFFFFFFFFFF ∧
  sF 0 = 0xEFA72C4D ∧ sF 0xFFFFFFFFFFFF = 0xD9CE3DCB ∧
  pF 0x00000001 = 0x00000800 ∧ pF 0x80000000 = 0x00800000 ∧
  mangler 0 0 = pF 0xEFA72C4D ∧ mangler 0xF0F0F0F0 0x7F37EFFB7F67 = 0x46454579 ∧
  (∀ s : State, s.fsm = .exec → s.opa.extractLsb' 32 32 = 0 → s.opb.extractLsb' 48 16 = 0 →
    ∃ t₁ t₂ t₃ t₄ u : State,
      exec .exp s = .next t₁ ∧
      exec .xork { t₁ with fsm := .exec, opa := t₁.resa } = .next t₂ ∧
      exec .sbox { t₂ with fsm := .exec, opa := t₂.resa } = .next t₃ ∧
      exec .permp { t₃ with fsm := .exec, opa := t₃.resa } = .next t₄ ∧
      exec .ffn s = .next u ∧ u.resa = t₄.resa ∧ t₄.err = s.err) ∧
  (∀ (k b : Word) (x : Nat → Word), x 0 = ipF b →
    (∀ i : RoundIx, ∃ s t : State, s.fsm = .exec ∧ s.kv = true ∧ s.sk = keySchedule k ∧
      s.opa = x i.val ∧ exec (.rnds (BitVec.ofNat 5 (i.val + 1))) s = .next t ∧ x (i.val + 1) = t.resa) →
    x 16 = roundsF (subkeyOf k) (ipF b) 16)

/-! ### The controller's engine steps -/

/-- R117: the INITIALIZED step of ENC and DEC, and DIN is read by no other engine step. -/
def Obligations.InitializedStepPermutesDin : Prop :=
  (∀ (s : State) (i : Instr), i = .enc ∨ i = .dec → s.fsm = .initialized →
    exec i s = .next { s with
      l := (ipF s.din).extractLsb' 32 32
      r := (ipF s.din).extractLsb' 0 32
      fsm := .permuted }) ∧
  (∀ (s t : State) (v : Word), s.fsm ≠ .initialized → engineStep s = .next t →
    engineStep { s with din := v } = .next { t with din := v })

/-- R119 (with R118): the PERMUTED step derives with KV = 0 and does round 1 with KV = 1, ENC with SK[1], DEC with
SK[16]. -/
def Obligations.PermutedStepDerivesOrDoesRoundOne : Prop :=
  (∀ (s : State) (i : Instr), i = .enc ∨ i = .dec → s.fsm = .permuted → s.kv = false →
    exec i s = .next (derivationStarted s)) ∧
  (∀ (s : State), s.fsm = .permuted → s.kv = true →
    exec .enc s = .next { s with
      l := s.r, r := s.l ^^^ mangler s.r s.sk[0], round := 1, fsm := .round } ∧
    exec .dec s = .next { s with
      l := s.r, r := s.l ^^^ mangler s.r s.sk[15], round := 1, fsm := .round })

/-- R120 (with R118): the ROUND step with ROUND = r, 1 ≤ r < 16, does round r + 1, ENC with SK[r + 1], DEC
with SK[17 − (r + 1)]; entry `r` of the model's vector is SK[r + 1]. -/
def Obligations.RoundStepDoesTheNextRound : Prop :=
  ∀ (s : State) (i : RoundIx), 1 ≤ i.val → s.fsm = .round → s.round = BitVec.ofNat 5 i.val →
    exec .enc s = .next { s with
      l := s.r, r := s.l ^^^ mangler s.r s.sk[i], round := BitVec.ofNat 5 (i.val + 1) } ∧
    exec .dec s = .next { s with
      l := s.r, r := s.l ^^^ mangler s.r s.sk[i.rev], round := BitVec.ofNat 5 (i.val + 1) }

/-- R121, R122: after round 16 the halves swap, and only then IP⁻¹ gives DOUT and the command completes,
with L and R kept. -/
def Obligations.SwapComesBeforeTheInversePermutation : Prop :=
  ∀ (s : State) (i : Instr), i = .enc ∨ i = .dec →
    (s.fsm = .round → s.round = 16 → exec i s = .next { s with l := s.r, r := s.l, fsm := .swapped }) ∧
    (s.fsm = .swapped →
      exec i s = .next { s with dout := fpF (s.l ++ s.r), done := true, fsm := .finalized })

/-- R108: the derivation step of round r = KSCNT + 1, for the five commands that derive. -/
def Obligations.DerivationStepMakesOneSubkey : Prop :=
  ∀ (s : State) (i : Instr) (k : RoundIx),
    i = .enc ∨ i = .dec ∨ i = .ksd ∨ (∃ rnd, i = .rnds rnd) ∨ (∃ rnd, i = .skrd rnd) →
    s.fsm = .ksPc1 ∨ s.fsm = .ksRot → s.kscnt = BitVec.ofNat 5 k.val →
    exec i s = .next { s with
      c := s.c.rotateLeft (shift k)
      d := s.d.rotateLeft (shift k)
      sk := s.sk.set k.val (pc2F (s.c.rotateLeft (shift k) ++ s.d.rotateLeft (shift k))) k.isLt
      kscnt := BitVec.ofNat 5 (k.val + 1)
      fsm := .ksRot
      kv := if k.val + 1 = 16 then true else s.kv }

/-- R109: the step that ends a derivation changes nothing but FSM. -/
def Obligations.DerivationEndReturnsToTheCommand : Prop :=
  ∀ (s : State) (i : Instr), s.fsm = .ksRot → s.kscnt = 16 →
    (i = .enc ∨ i = .dec → exec i s = .next { s with fsm := .permuted }) ∧
    (i = .ksd ∨ (∃ rnd, i = .rnds rnd) ∨ (∃ rnd, i = .skrd rnd) →
      exec i s = .next { s with fsm := .exec })

/-! ### The algorithm -/

/-- R92 and R73: the round function, a round as the rule writes it, a round undone with the same subkey, and
IP and FP undoing each other, in the tables too. -/
def Obligations.RoundsAndBlockPermutationsAreInvertible : Prop :=
  (∀ (r : Half) (k : Subkey), mangler r k = pF (sF (eF r ^^^ k))) ∧
  (∀ (b : Word) (k : Subkey),
    roundF b k = b.extractLsb' 0 32 ++ (b.extractLsb' 32 32 ^^^ mangler (b.extractLsb' 0 32) k)) ∧
  (∀ (b : Word) (k : Subkey),
    b = (lo32 (roundF b k) ^^^ mangler (hi32 (roundF b k)) k) ++ hi32 (roundF b k)) ∧
  (∀ v : Word, fpF (ipF v) = v) ∧ (∀ v : Word, ipF (fpF v) = v) ∧
  (∀ j : Fin 64, tableFP.getD (tableIP.getD j.val 0 - 1) 0 = j.val + 1)

/-- R106: the rotations make a full turn, and keys that differ only in the parity positions have the same
schedule and the same ENC and DEC results. -/
def Obligations.KeyScheduleTurnsFullyAndIgnoresParity : Prop :=
  (∀ k : Word, halvesAfter k 16 = pc1F k) ∧
  (∀ k m : Word, k &&& 0xFEFEFEFEFEFEFEFE = m &&& 0xFEFEFEFEFEFEFEFE →
    keySchedule k = keySchedule m ∧ ∀ b : Word, encF b k = encF b m ∧ decF b k = decF b m)

/-- R127: decryption undoes encryption and encryption undoes decryption, for every block and key. -/
def Obligations.DecryptionUndoesEncryption : Prop :=
  (∀ b k : Word, decF (encF b k) k = b) ∧ (∀ b k : Word, encF (decF b k) k = b)

/-- R89: the source's golden vectors. -/
def Obligations.GoldenVectorsHold : Prop :=
  eF 0xF0F0F0F0 = 0x7A17A17A17A1 ∧
  encF 0x123456ABCD132536 0xAABB09182736CCDD = 0xC0B7A8D05F3A829C ∧
  decF 0xC0B7A8D05F3A829C 0xAABB09182736CCDD = 0x123456ABCD132536

/-! ### Whole-machine rules -/

/-- R40, R41 at reset. -/
def Obligations.ResetStateMeetsTheInvariant : Prop := EngineInv State.reset

/-- R40, R41: every step keeps the invariant, from every state that meets it. -/
def Obligations.EveryStepKeepsTheInvariant : Prop :=
  ∀ s t : State, EngineInv s → step s = .next t → EngineInv t

/-- R116 with R40, R41: in a state that meets the invariant a step answers a next state, unless the next
input is an access the window answers with a bus error. -/
def Obligations.NoStepIsStuckUnderTheInvariant : Prop :=
  ∀ s : State, EngineInv s → (∀ inp rest, s.inputs = inp :: rest → answered inp) → ∃ t, step s = .next t

/-- In states that R40 and R41 rule out the model follows R116's rows, and stops where there is none (log
entry 9, the model's reading). A round index outside 1..16 in EXEC; ENC or DEC in EXEC; a round counter
above 16, a derivation counter above 16, and one of 16 in KS_PC1; ROUND = 0 in FSM = ROUND, which does
round 1; the rows of a command that R41 does not let latch there; and LASTCMD holding no command or SRST,
which is stuck in EXEC and goes as NOP, a command without subkeys of its own, elsewhere. -/
def Obligations.StatesOutsideTheInvariantFollowTheTable : Prop :=
  (∀ (s : State) (rnd : BitVec 5), roundInRange rnd = false → s.fsm = .exec →
    exec (.ksrot rnd) s = .fault .noTransition ∧
    (s.kv = true → exec (.rnds rnd) s = .fault .noTransition ∧ exec (.skrd rnd) s = .fault .noTransition)) ∧
  (∀ (s : State) (i : Instr), i = .enc ∨ i = .dec → s.fsm = .exec → exec i s = .fault .noTransition) ∧
  (∀ (s : State) (i : Instr), i ≠ .srst →
    (s.fsm = .round ∧ 16 < s.round.toNat) ∨ (s.fsm = .ksPc1 ∧ 16 ≤ s.kscnt.toNat) ∨
      (s.fsm = .ksRot ∧ 16 < s.kscnt.toNat) →
    exec i s = .fault .noTransition) ∧
  (∀ s : State, s.fsm = .round → s.round = 0 →
    exec .enc s = .next { s with l := s.r, r := s.l ^^^ mangler s.r s.sk[0], round := 1 } ∧
    exec .dec s = .next { s with l := s.r, r := s.l ^^^ mangler s.r s.sk[15], round := 1 }) ∧
  (∀ (s : State) (i : Instr), i ≠ .enc → i ≠ .dec → i ≠ .srst →
    (s.fsm = .initialized → exec i s = .next { s with
      l := (ipF s.din).extractLsb' 32 32, r := (ipF s.din).extractLsb' 0 32, fsm := .permuted }) ∧
    (s.fsm = .permuted → s.kv = false → exec i s = .next (derivationStarted s)) ∧
    (s.fsm = .permuted → s.kv = true → exec i s = .fault .noTransition) ∧
    (s.fsm = .round → s.round.toNat < 16 → exec i s = .fault .noTransition) ∧
    (s.fsm = .round → s.round = 16 → exec i s = .next { s with l := s.r, r := s.l, fsm := .swapped }) ∧
    (s.fsm = .swapped →
      exec i s = .next { s with dout := fpF (s.l ++ s.r), done := true, fsm := .finalized }) ∧
    (∀ k : RoundIx, s.fsm = .ksPc1 ∨ s.fsm = .ksRot → s.kscnt = BitVec.ofNat 5 k.val →
      exec i s = .next { s with
        c := s.c.rotateLeft (shift k)
        d := s.d.rotateLeft (shift k)
        sk := s.sk.set k.val (pc2F (s.c.rotateLeft (shift k) ++ s.d.rotateLeft (shift k))) k.isLt
        kscnt := BitVec.ofNat 5 (k.val + 1)
        fsm := .ksRot
        kv := if k.val + 1 = 16 then true else s.kv }) ∧
    (s.fsm = .ksRot → s.kscnt = 16 → exec i s = .next { s with fsm := .exec })) ∧
  (∀ s : State, busy s = true → (∀ i, decodeWord s.lastcmd = .ok i → i = .srst) →
    (s.fsm = .exec → engineStep s = .fault .noTransition) ∧
    (s.fsm ≠ .exec → engineStep s = exec .nop s))

/-- R24, R125, R126, R127: whatever the host does in between, the step that enters FINALIZED from SWAPPED
writes ENCf (DECf) of the present DIN and KEY to DOUT, and no other step changes DOUT but SRST and reset,
which clear it. -/
def Obligations.DoutIsTheCipherResultUnderEveryInterleaving : Prop :=
  (∀ s : State, EngineInv s → s.fsm = .swapped → decodeWord s.lastcmd = .ok .enc →
    exec .enc s = .next { s with dout := encF s.din s.key, done := true, fsm := .finalized }) ∧
  (∀ s : State, EngineInv s → s.fsm = .swapped → decodeWord s.lastcmd = .ok .dec →
    exec .dec s = .next { s with dout := decF s.din s.key, done := true, fsm := .finalized }) ∧
  (∀ s t : State, EngineInv s → step s = .next t → t.dout ≠ s.dout →
    (s.fsm = .swapped ∧ t.fsm = .finalized ∧
      (decodeWord s.lastcmd = .ok .enc ∧ t.dout = encF s.din s.key ∨
       decodeWord s.lastcmd = .ok .dec ∧ t.dout = decF s.din s.key)) ∨
    (∃ inp rest, s.inputs = inp :: rest ∧ abandons inp ∧ t.dout = 0))

/-- R125 with R115 to R122: ENC from its acceptance to its completion, 19 engine steps with KV = 1 and 37
with KV = 0, and everything it leaves. -/
def Obligations.EncRunsToCompletion : Prop :=
  ∀ s : State, EngineInv s → busy s = false → s.inputs = [.write 0x08 8 0x0000000000000002] →
    runsTo (if s.kv then 20 else 38) s
      { s with
        lastcmd := 0x0000000000000002
        dout := encF s.din s.key
        done := true
        kv := true
        fsm := .finalized
        round := 16
        kscnt := if s.kv then s.kscnt else 16
        c := if s.kv then s.c else (pc1F s.key).extractLsb' 28 28
        d := if s.kv then s.d else (pc1F s.key).extractLsb' 0 28
        l := lo32 (roundsF (subkeyOf s.key) (ipF s.din) 16)
        r := hi32 (roundsF (subkeyOf s.key) (ipF s.din) 16)
        sk := keySchedule s.key
        inputs := [] }

/-- R126 with R115 to R122: DEC from its acceptance to its completion, as ENC with the subkeys reversed. -/
def Obligations.DecRunsToCompletion : Prop :=
  ∀ s : State, EngineInv s → busy s = false → s.inputs = [.write 0x08 8 0x0000000000000003] →
    runsTo (if s.kv then 20 else 38) s
      { s with
        lastcmd := 0x0000000000000003
        dout := decF s.din s.key
        done := true
        kv := true
        fsm := .finalized
        round := 16
        kscnt := if s.kv then s.kscnt else 16
        c := if s.kv then s.c else (pc1F s.key).extractLsb' 28 28
        d := if s.kv then s.d else (pc1F s.key).extractLsb' 0 28
        l := lo32 (roundsF (fun i => subkeyOf s.key i.rev) (ipF s.din) 16)
        r := hi32 (roundsF (fun i => subkeyOf s.key i.rev) (ipF s.din) 16)
        sk := keySchedule s.key
        inputs := [] }

/-- R152: the engine steps of every command between acceptance and completion, busy at each of them. -/
def Obligations.StepCountsOfEveryCommand : Prop :=
  ∀ (i : Instr) (s : State), EngineInv s → i.wf = true → i ≠ .srst → busy s = false →
    s.inputs = [.write 0x08 8 (encode i)] →
    (∃ t, runsTo (1 + stepCount i s.kv) s t ∧ busy t = false ∧ t.done = true ∧ t.lastcmd = encode i) ∧
    (∀ m, 1 ≤ m → m ≤ stepCount i s.kv → ∃ u, runsTo m s u ∧ busy u = true)

/-- R153: from every busy state that meets the invariant, whatever accesses the host still makes, the
engine is not busy after at most 37 steps more than there are inputs. -/
def Obligations.EveryRunningCommandEnds : Prop :=
  ∀ s : State, EngineInv s → busy s = true → (∀ inp ∈ s.inputs, answered inp) →
    ∃ n t, n ≤ s.inputs.length + 37 ∧ runsTo n s t ∧ busy t = false

/-- R147: while the engine is busy, no step but SRST and reset changes the operands or the latched
command. -/
def Obligations.OperandsStayWhileBusy : Prop :=
  ∀ s t : State, busy s = true → step s = .next t →
    (∀ inp rest, s.inputs = inp :: rest → ¬ abandons inp) →
    t.key = s.key ∧ t.din = s.din ∧ t.opa = s.opa ∧ t.opb = s.opb ∧ t.lastcmd = s.lastcmd

/-- R32: an entry of the subkey file is changed only by its own derivation step, and by SRST and reset. -/
def Obligations.SubkeyFileIsWrittenOnlyByDerivation : Prop :=
  ∀ s t : State, step s = .next t → ∀ i : RoundIx, t.sk[i] ≠ s.sk[i] →
    ((s.fsm = .ksPc1 ∨ s.fsm = .ksRot) ∧ s.kscnt.toNat = i.val) ∨
    (∃ inp rest, s.inputs = inp :: rest ∧ abandons inp)

/-- R34, R107: KV is set only by the last derivation step, and cleared only by an accepted KEY write, SRST
and reset; every accepted KEY write clears it. -/
def Obligations.KeyValidIsSetByDerivationAndClearedByKeyWrites : Prop :=
  (∀ s t : State, step s = .next t → s.kv = false → t.kv = true →
    (s.fsm = .ksPc1 ∨ s.fsm = .ksRot) ∧ s.kscnt.toNat = 15) ∧
  (∀ s t : State, step s = .next t → s.kv = true → t.kv = false →
    ∃ inp rest, s.inputs = inp :: rest ∧
      (abandons inp ∨ (busy s = false ∧ ∃ v, inp = .write 0x20 8 v))) ∧
  (∀ (s : State) (v : Word) (rest : List Input), s.inputs = .write 0x20 8 v :: rest → busy s = false →
    ∃ t, step s = .next t ∧ t.key = v ∧ t.kv = false)

/-- R25, R131: LASTCMD changes only to a legal word accepted while the engine is not busy, and by SRST and
reset: rejected and dropped words are not recorded. -/
def Obligations.LastCommandIsTheLastAcceptedWord : Prop :=
  ∀ s t : State, step s = .next t → t.lastcmd ≠ s.lastcmd →
    (∃ v rest, s.inputs = .write 0x08 8 v :: rest ∧ busy s = false ∧ legal v = true ∧ t.lastcmd = v) ∨
    (∃ inp rest, s.inputs = inp :: rest ∧ abandons inp)

/-- R133: the commands that never raise an error in an engine step, and every error an engine step does
raise is WidthViolation from an EXEC step, with no result written. -/
def Obligations.OnlyWidthChecksRaiseInAnEngineStep : Prop :=
  (∀ (i : Instr) (s t : State),
    i = .enc ∨ i = .dec ∨ i = .ksd ∨ i = .nop ∨ i = .ip ∨ i = .fp ∨ i = .split ∨ i = .swap ∨ i = .pc1 ∨
      (∃ rnd, i = .rnds rnd) ∨ (∃ rnd, i = .skrd rnd) →
    busy s = true → exec i s = .next t → t.err = s.err ∧ t.ecode = s.ecode) ∧
  (∀ s t : State, engineStep s = .next t → s.err = false → t.err = true →
    s.fsm = .exec ∧ t = { s with err := true, ecode := 1, done := true, fsm := .finalized })

/-! ### Host-side text -/

/-- R60, R62: `parse` checks the length first and then the encoding, and `parse` and `toText` undo each
other; `toText` is refused exactly for a byte above 0x7F. The order of the checks is log entry 12. -/
def Obligations.ParseAndToTextAgree : Prop :=
  (∀ text : List Char, text.length ≠ 8 → parse text = .error .inputLength) ∧
  (∀ text : List Char, text.length = 8 → (∃ ch ∈ text, 0x7F < ch.toNat) →
    parse text = .error .inputEncoding) ∧
  (∀ (text : List Char) (v : Word), parse text = .ok v ↔ toText v = some text) ∧
  (∀ v : Word, toText v = none ↔ ∃ i : Fin 8, 0x7F < (v.extractLsb' (56 - 8 * i.val) 8).toNat) ∧
  parse ['A', 'B', 'C', 'D', 'E', 'F', 'G', 'H'] = .ok 0x4142434445464748
end

