-- ==== Sys2Proof/Config.lean ====
section
/-! DEFINITION. What an implementation fixes and the spec leaves open (R10, 93_implementation_defined.md
I7, I8). No rule and no step of the model depends on either parameter. -/

namespace Sys2Proof.Config

/-- `DESCORE_BASE`: where the host platform places the register window (R10, R45; OPEN, log entry 6). -/
opaque descoreBase : Nat

/-- `CYCLES_PER_STEP - 1`; the parameter itself is at least 1 (R10; OPEN, log entry 6). -/
opaque extraCyclesPerStep : Nat

/-- `CYCLES_PER_STEP`, the clock cycles of one engine step (R10, R152; informative). -/
def cyclesPerStep : Nat := extraCyclesPerStep + 1

/-- The address at which the host platform sees the register at `off` (R45). -/
def hostAddress (off : Offset) : Nat := descoreBase + off.toNat

end Sys2Proof.Config
end

