-- ==== Sys2Proof/Laws/Bits.lean ====
section
/-! SUPPORT. Fields of a concatenation, for any widths. They are stated with the width as a sum, so that at
fixed widths they are used as terms (`exact`), where Lean computes the sum. -/

namespace Sys2Proof

theorem getLsbD_concat {n m : Nat} (a : BitVec n) (b : BitVec m) (i : Nat) :
    (a ++ b).getLsbD i = if i < m then b.getLsbD i else a.getLsbD (i - m) := by
  exact BitVec.getLsbD_append

/-- The upper part of a concatenation. -/
theorem extract_hi_concat {n m : Nat} (a : BitVec n) (b : BitVec m) :
    (a ++ b).extractLsb' m n = a := by
  apply BitVec.eq_of_getLsbD_eq; intro j hj
  simp [getLsbD_concat, hj]

/-- The lower part of a concatenation. -/
theorem extract_lo_concat {n m : Nat} (a : BitVec n) (b : BitVec m) :
    (a ++ b).extractLsb' 0 m = b := by
  apply BitVec.eq_of_getLsbD_eq; intro j hj
  simp [getLsbD_concat, hj]

/-- A value is its upper part followed by its lower part. -/
theorem concat_extract {n m : Nat} (v : BitVec (n + m)) :
    v.extractLsb' m n ++ v.extractLsb' 0 m = v := by
  apply BitVec.eq_of_getLsbD_eq; intro j hj
  rw [getLsbD_concat]
  by_cases h : j < m
  · simp [h]
  · simp [h, show m + (j - m) = j by omega, show j - m < n by omega]

/-- A field inside the lower part of a concatenation. -/
theorem extract_concat_of_le {n m : Nat} (a : BitVec n) (b : BitVec m) (s l : Nat) (h : s + l ≤ m) :
    (a ++ b).extractLsb' s l = b.extractLsb' s l := by
  apply BitVec.eq_of_getLsbD_eq; intro j hj
  simp only [BitVec.getLsbD_extractLsb', getLsbD_concat, hj, decide_true, Bool.true_and]
  rw [if_pos (by omega)]

/-- A field inside the upper part of a concatenation. -/
theorem extract_concat_of_ge {n m : Nat} (a : BitVec n) (b : BitVec m) (s l : Nat) (h : m ≤ s) :
    (a ++ b).extractLsb' s l = a.extractLsb' (s - m) l := by
  apply BitVec.eq_of_getLsbD_eq; intro j hj
  simp only [BitVec.getLsbD_extractLsb', getLsbD_concat, hj, decide_true, Bool.true_and]
  rw [if_neg (by omega), show s + j - m = s - m + j by omega]

/-- A field of a field. -/
theorem extract_extract {w : Nat} (v : BitVec w) (s l t k : Nat) (h : t + k ≤ l) :
    (v.extractLsb' s l).extractLsb' t k = v.extractLsb' (s + t) k := by
  apply BitVec.eq_of_getLsbD_eq; intro j hj
  simp only [BitVec.getLsbD_extractLsb', hj, decide_true, Bool.true_and]
  simp [show t + j < l by omega, Nat.add_assoc]

end Sys2Proof
end

