-- ==== Sys2Proof/Laws/Datapath.lean ====
section
/-! SUPPORT. Halves and concatenation, and one bit of a permutation. -/

namespace Sys2Proof.Machine

@[simp] theorem hi32_append (a b : Half) : hi32 (a ++ b) = a := extract_hi_concat a b

@[simp] theorem lo32_append (a b : Half) : lo32 (a ++ b) = b := extract_lo_concat a b

@[simp] theorem hi32_append_lo32 (v : Word) : (hi32 v ++ lo32 v : Word) = v :=
  concat_extract (n := 32) (m := 32) v

@[simp] theorem cHalf_append (a b : KeyHalf) : cHalf (a ++ b) = a := extract_hi_concat a b

@[simp] theorem dHalf_append (a b : KeyHalf) : dHalf (a ++ b) = b := extract_lo_concat a b

@[simp] theorem cHalf_append_dHalf (v : KeyHalves) : (cHalf v ++ dHalf v : KeyHalves) = v :=
  concat_extract (n := 28) (m := 28) v

@[simp] theorem block_setBlock (v : Word) (s : State) : block (setBlock v s) = v := hi32_append_lo32 v

@[simp] theorem halves_setHalves (v : KeyHalves) (s : State) : halves (setHalves v s) = v :=
  cHalf_append_dHalf v

@[simp] theorem hi32_block (s : State) : hi32 (block s) = s.l := hi32_append s.l s.r

@[simp] theorem lo32_block (s : State) : lo32 (block s) = s.r := lo32_append s.l s.r

@[simp] theorem cHalf_halves (s : State) : cHalf (halves s) = s.c := cHalf_append s.c s.d

@[simp] theorem dHalf_halves (s : State) : dHalf (halves s) = s.d := dHalf_append s.c s.d

/-- One bit of a permutation, positions counted from the most significant bit (R12, R13). -/
theorem getMsbD_perm (T : List Nat) {w n : Nat} (v : BitVec w) (h : T.length = n) (j : Nat) (hj : j < n) :
    (perm T v n).getMsbD j = v.getMsbD (T.getD j 0 - 1) := by
  subst h
  have : (perm T v T.length).getMsbD j
      = (BitVec.ofBoolListBE (T.map fun p => v.getMsbD (p - 1))).getMsbD j := by
    simp [perm, BitVec.getMsbD, BitVec.getLsbD_setWidth]
  rw [this, BitVec.getMsbD_ofBoolListBE]
  simp [List.getD_eq_getElem?_getD, hj]

/-! The two iterations, one stage at a time (R105, R120, R125). -/

@[simp] theorem halvesAfter_zero (k : Word) : halvesAfter k 0 = pc1F k := rfl

theorem halvesAfter_succ (k : Word) (n : Nat) (h : n < 16) :
    halvesAfter k (n + 1) = rotateHalves (halvesAfter k n) ⟨n, h⟩ := by simp [halvesAfter, h]

@[simp] theorem roundsF_zero (ksel : RoundIx → Subkey) (b : Word) : roundsF ksel b 0 = b := rfl

theorem roundsF_succ (ksel : RoundIx → Subkey) (b : Word) (n : Nat) (h : n < 16) :
    roundsF ksel b (n + 1) = roundF (roundsF ksel b n) (ksel ⟨n, h⟩) := by simp [roundsF, h]

theorem halves_startDerivation (s : State) : halves (startDerivation s) = pc1F s.key :=
  cHalf_append_dHalf _

theorem halves_derivationStep (i : RoundIx) (s : State) :
    halves (derivationStep i s) = rotateHalves (halves s) i := cHalf_append_dHalf _

theorem block_initializedStep (s : State) : block (initializedStep s) = ipF s.din := hi32_append_lo32 _

theorem block_feistelRound (k : Subkey) (n : BitVec 5) (s : State) :
    block (feistelRound k n s) = roundF (block s) k := hi32_append_lo32 _

theorem block_swapStep (s : State) : block (swapStep s) = swapHalves (block s) := hi32_append_lo32 _

/-- A counter in 0..15 counts up by one. -/
theorem toNat_add_one {x : BitVec 5} (h : x.toNat < 16) : (x + 1).toNat = x.toNat + 1 := by
  have : (1 : BitVec 5).toNat = 1 := rfl
  rw [BitVec.toNat_add, this]; omega

end Sys2Proof.Machine
end

