-- ==== Sys2Proof/Laws/Decode.lean ====
section
/-! SUPPORT. The fields of an encoded command, and the round index a round field selects. -/

namespace Sys2Proof

@[simp] theorem opcOf_encode (i : Instr) : opcOf (encode i) = opcode i :=
  extract_lo_concat ((0 : BitVec 51) ++ rndField i) (opcode i)

@[simp] theorem rndOf_encode (i : Instr) : rndOf (encode i) = rndField i :=
  (extract_concat_of_ge ((0 : BitVec 51) ++ rndField i) (opcode i) 8 5 (by decide)).trans
    (extract_lo_concat (0 : BitVec 51) (rndField i))

@[simp] theorem rsvOf_encode (i : Instr) : rsvOf (encode i) = 0 :=
  (extract_concat_of_ge ((0 : BitVec 51) ++ rndField i) (opcode i) 13 51 (by decide)).trans
    (extract_hi_concat (0 : BitVec 51) (rndField i))

/-- A word is its three fields (R64). -/
theorem fields_append (v : Word) : (rsvOf v ++ rndOf v ++ opcOf v : Word) = v := by
  have h : (v.extractLsb' 13 51 ++ v.extractLsb' 8 5 : BitVec 56) = v.extractLsb' 8 56 := by
    have := concat_extract (n := 51) (m := 5) (v.extractLsb' 8 56)
    rwa [extract_extract v 8 56 5 51 (by decide), extract_extract v 8 56 0 5 (by decide)] at this
  have := concat_extract (n := 56) (m := 8) v
  rw [← h] at this
  exact this

namespace Machine

/-- The round field `i + 1` selects the round of index `i` (R65). -/
@[simp] theorem roundIx_ofNat (i : RoundIx) : roundIx (BitVec.ofNat 5 (i.val + 1)) = some i := by
  revert i; decide

@[simp] theorem roundInRange_ofNat (i : RoundIx) : roundInRange (BitVec.ofNat 5 (i.val + 1)) = true := by
  revert i; decide

/-- A round field out of range selects no round (R68). -/
theorem roundIx_eq_none (rnd : BitVec 5) (h : roundInRange rnd = false) : roundIx rnd = none := by
  revert rnd; decide

/-- A round field in range is `i + 1` for some round index `i`. -/
theorem exists_roundIx (rnd : BitVec 5) (h : roundInRange rnd = true) :
    ∃ i : RoundIx, rnd = BitVec.ofNat 5 (i.val + 1) := by
  revert rnd; decide

end Machine

end Sys2Proof
end

