-- ==== Sys2Proof/Laws/State.lean ====
section
/-! SUPPORT. What each named update of the state does to each field: one small fact per field, so that no
proof unfolds a record update. -/

namespace Sys2Proof.Machine

/-! ### raiseError -/

@[simp] theorem raiseError_key (e : EngineError) (s : State) : (raiseError e s).key = s.key := by
  unfold raiseError; split <;> rfl
@[simp] theorem raiseError_din (e : EngineError) (s : State) : (raiseError e s).din = s.din := by
  unfold raiseError; split <;> rfl
@[simp] theorem raiseError_dout (e : EngineError) (s : State) : (raiseError e s).dout = s.dout := by
  unfold raiseError; split <;> rfl
@[simp] theorem raiseError_lastcmd (e : EngineError) (s : State) : (raiseError e s).lastcmd = s.lastcmd := by
  unfold raiseError; split <;> rfl
@[simp] theorem raiseError_opa (e : EngineError) (s : State) : (raiseError e s).opa = s.opa := by
  unfold raiseError; split <;> rfl
@[simp] theorem raiseError_opb (e : EngineError) (s : State) : (raiseError e s).opb = s.opb := by
  unfold raiseError; split <;> rfl
@[simp] theorem raiseError_resa (e : EngineError) (s : State) : (raiseError e s).resa = s.resa := by
  unfold raiseError; split <;> rfl
@[simp] theorem raiseError_resb (e : EngineError) (s : State) : (raiseError e s).resb = s.resb := by
  unfold raiseError; split <;> rfl
@[simp] theorem raiseError_done (e : EngineError) (s : State) : (raiseError e s).done = s.done := by
  unfold raiseError; split <;> rfl
@[simp] theorem raiseError_kv (e : EngineError) (s : State) : (raiseError e s).kv = s.kv := by
  unfold raiseError; split <;> rfl
@[simp] theorem raiseError_err (e : EngineError) (s : State) : (raiseError e s).err = true := by
  unfold raiseError; split <;> simp_all
@[simp] theorem raiseError_ecode (e : EngineError) (s : State) : (raiseError e s).ecode = if s.err then s.ecode else errorCode e := by
  unfold raiseError; split <;> rfl
@[simp] theorem raiseError_fsm (e : EngineError) (s : State) : (raiseError e s).fsm = s.fsm := by
  unfold raiseError; split <;> rfl
@[simp] theorem raiseError_round (e : EngineError) (s : State) : (raiseError e s).round = s.round := by
  unfold raiseError; split <;> rfl
@[simp] theorem raiseError_kscnt (e : EngineError) (s : State) : (raiseError e s).kscnt = s.kscnt := by
  unfold raiseError; split <;> rfl
@[simp] theorem raiseError_die (e : EngineError) (s : State) : (raiseError e s).die = s.die := by
  unfold raiseError; split <;> rfl
@[simp] theorem raiseError_eie (e : EngineError) (s : State) : (raiseError e s).eie = s.eie := by
  unfold raiseError; split <;> rfl
@[simp] theorem raiseError_c (e : EngineError) (s : State) : (raiseError e s).c = s.c := by
  unfold raiseError; split <;> rfl
@[simp] theorem raiseError_d (e : EngineError) (s : State) : (raiseError e s).d = s.d := by
  unfold raiseError; split <;> rfl
@[simp] theorem raiseError_l (e : EngineError) (s : State) : (raiseError e s).l = s.l := by
  unfold raiseError; split <;> rfl
@[simp] theorem raiseError_r (e : EngineError) (s : State) : (raiseError e s).r = s.r := by
  unfold raiseError; split <;> rfl
@[simp] theorem raiseError_sk (e : EngineError) (s : State) : (raiseError e s).sk = s.sk := by
  unfold raiseError; split <;> rfl
@[simp] theorem raiseError_inputs (e : EngineError) (s : State) : (raiseError e s).inputs = s.inputs := by
  unfold raiseError; split <;> rfl
@[simp] theorem raiseError_readData (e : EngineError) (s : State) : (raiseError e s).readData = s.readData := by
  unfold raiseError; split <;> rfl

/-! ### complete -/

@[simp] theorem complete_key (s : State) : (complete s).key = s.key := rfl
@[simp] theorem complete_din (s : State) : (complete s).din = s.din := rfl
@[simp] theorem complete_dout (s : State) : (complete s).dout = s.dout := rfl
@[simp] theorem complete_lastcmd (s : State) : (complete s).lastcmd = s.lastcmd := rfl
@[simp] theorem complete_opa (s : State) : (complete s).opa = s.opa := rfl
@[simp] theorem complete_opb (s : State) : (complete s).opb = s.opb := rfl
@[simp] theorem complete_resa (s : State) : (complete s).resa = s.resa := rfl
@[simp] theorem complete_resb (s : State) : (complete s).resb = s.resb := rfl
@[simp] theorem complete_done (s : State) : (complete s).done = true := rfl
@[simp] theorem complete_kv (s : State) : (complete s).kv = s.kv := rfl
@[simp] theorem complete_err (s : State) : (complete s).err = s.err := rfl
@[simp] theorem complete_ecode (s : State) : (complete s).ecode = s.ecode := rfl
@[simp] theorem complete_fsm (s : State) : (complete s).fsm = .finalized := rfl
@[simp] theorem complete_round (s : State) : (complete s).round = s.round := rfl
@[simp] theorem complete_kscnt (s : State) : (complete s).kscnt = s.kscnt := rfl
@[simp] theorem complete_die (s : State) : (complete s).die = s.die := rfl
@[simp] theorem complete_eie (s : State) : (complete s).eie = s.eie := rfl
@[simp] theorem complete_c (s : State) : (complete s).c = s.c := rfl
@[simp] theorem complete_d (s : State) : (complete s).d = s.d := rfl
@[simp] theorem complete_l (s : State) : (complete s).l = s.l := rfl
@[simp] theorem complete_r (s : State) : (complete s).r = s.r := rfl
@[simp] theorem complete_sk (s : State) : (complete s).sk = s.sk := rfl
@[simp] theorem complete_inputs (s : State) : (complete s).inputs = s.inputs := rfl
@[simp] theorem complete_readData (s : State) : (complete s).readData = s.readData := rfl

/-! ### setBlock -/

@[simp] theorem setBlock_key (v : Word) (s : State) : (setBlock v s).key = s.key := rfl
@[simp] theorem setBlock_din (v : Word) (s : State) : (setBlock v s).din = s.din := rfl
@[simp] theorem setBlock_dout (v : Word) (s : State) : (setBlock v s).dout = s.dout := rfl
@[simp] theorem setBlock_lastcmd (v : Word) (s : State) : (setBlock v s).lastcmd = s.lastcmd := rfl
@[simp] theorem setBlock_opa (v : Word) (s : State) : (setBlock v s).opa = s.opa := rfl
@[simp] theorem setBlock_opb (v : Word) (s : State) : (setBlock v s).opb = s.opb := rfl
@[simp] theorem setBlock_resa (v : Word) (s : State) : (setBlock v s).resa = s.resa := rfl
@[simp] theorem setBlock_resb (v : Word) (s : State) : (setBlock v s).resb = s.resb := rfl
@[simp] theorem setBlock_done (v : Word) (s : State) : (setBlock v s).done = s.done := rfl
@[simp] theorem setBlock_kv (v : Word) (s : State) : (setBlock v s).kv = s.kv := rfl
@[simp] theorem setBlock_err (v : Word) (s : State) : (setBlock v s).err = s.err := rfl
@[simp] theorem setBlock_ecode (v : Word) (s : State) : (setBlock v s).ecode = s.ecode := rfl
@[simp] theorem setBlock_fsm (v : Word) (s : State) : (setBlock v s).fsm = s.fsm := rfl
@[simp] theorem setBlock_round (v : Word) (s : State) : (setBlock v s).round = s.round := rfl
@[simp] theorem setBlock_kscnt (v : Word) (s : State) : (setBlock v s).kscnt = s.kscnt := rfl
@[simp] theorem setBlock_die (v : Word) (s : State) : (setBlock v s).die = s.die := rfl
@[simp] theorem setBlock_eie (v : Word) (s : State) : (setBlock v s).eie = s.eie := rfl
@[simp] theorem setBlock_c (v : Word) (s : State) : (setBlock v s).c = s.c := rfl
@[simp] theorem setBlock_d (v : Word) (s : State) : (setBlock v s).d = s.d := rfl
@[simp] theorem setBlock_l (v : Word) (s : State) : (setBlock v s).l = hi32 v := rfl
@[simp] theorem setBlock_r (v : Word) (s : State) : (setBlock v s).r = lo32 v := rfl
@[simp] theorem setBlock_sk (v : Word) (s : State) : (setBlock v s).sk = s.sk := rfl
@[simp] theorem setBlock_inputs (v : Word) (s : State) : (setBlock v s).inputs = s.inputs := rfl
@[simp] theorem setBlock_readData (v : Word) (s : State) : (setBlock v s).readData = s.readData :=
  rfl

/-! ### setHalves -/

@[simp] theorem setHalves_key (v : KeyHalves) (s : State) : (setHalves v s).key = s.key := rfl
@[simp] theorem setHalves_din (v : KeyHalves) (s : State) : (setHalves v s).din = s.din := rfl
@[simp] theorem setHalves_dout (v : KeyHalves) (s : State) : (setHalves v s).dout = s.dout := rfl
@[simp] theorem setHalves_lastcmd (v : KeyHalves) (s : State) : (setHalves v s).lastcmd = s.lastcmd :=
  rfl
@[simp] theorem setHalves_opa (v : KeyHalves) (s : State) : (setHalves v s).opa = s.opa := rfl
@[simp] theorem setHalves_opb (v : KeyHalves) (s : State) : (setHalves v s).opb = s.opb := rfl
@[simp] theorem setHalves_resa (v : KeyHalves) (s : State) : (setHalves v s).resa = s.resa := rfl
@[simp] theorem setHalves_resb (v : KeyHalves) (s : State) : (setHalves v s).resb = s.resb := rfl
@[simp] theorem setHalves_done (v : KeyHalves) (s : State) : (setHalves v s).done = s.done := rfl
@[simp] theorem setHalves_kv (v : KeyHalves) (s : State) : (setHalves v s).kv = s.kv := rfl
@[simp] theorem setHalves_err (v : KeyHalves) (s : State) : (setHalves v s).err = s.err := rfl
@[simp] theorem setHalves_ecode (v : KeyHalves) (s : State) : (setHalves v s).ecode = s.ecode := rfl
@[simp] theorem setHalves_fsm (v : KeyHalves) (s : State) : (setHalves v s).fsm = s.fsm := rfl
@[simp] theorem setHalves_round (v : KeyHalves) (s : State) : (setHalves v s).round = s.round := rfl
@[simp] theorem setHalves_kscnt (v : KeyHalves) (s : State) : (setHalves v s).kscnt = s.kscnt := rfl
@[simp] theorem setHalves_die (v : KeyHalves) (s : State) : (setHalves v s).die = s.die := rfl
@[simp] theorem setHalves_eie (v : KeyHalves) (s : State) : (setHalves v s).eie = s.eie := rfl
@[simp] theorem setHalves_c (v : KeyHalves) (s : State) : (setHalves v s).c = cHalf v := rfl
@[simp] theorem setHalves_d (v : KeyHalves) (s : State) : (setHalves v s).d = dHalf v := rfl
@[simp] theorem setHalves_l (v : KeyHalves) (s : State) : (setHalves v s).l = s.l := rfl
@[simp] theorem setHalves_r (v : KeyHalves) (s : State) : (setHalves v s).r = s.r := rfl
@[simp] theorem setHalves_sk (v : KeyHalves) (s : State) : (setHalves v s).sk = s.sk := rfl
@[simp] theorem setHalves_inputs (v : KeyHalves) (s : State) : (setHalves v s).inputs = s.inputs :=
  rfl
@[simp] theorem setHalves_readData (v : KeyHalves) (s : State) : (setHalves v s).readData = s.readData :=
  rfl

/-! ### startDerivation -/

@[simp] theorem startDerivation_key (s : State) : (startDerivation s).key = s.key := rfl
@[simp] theorem startDerivation_din (s : State) : (startDerivation s).din = s.din := rfl
@[simp] theorem startDerivation_dout (s : State) : (startDerivation s).dout = s.dout := rfl
@[simp] theorem startDerivation_lastcmd (s : State) : (startDerivation s).lastcmd = s.lastcmd := rfl
@[simp] theorem startDerivation_opa (s : State) : (startDerivation s).opa = s.opa := rfl
@[simp] theorem startDerivation_opb (s : State) : (startDerivation s).opb = s.opb := rfl
@[simp] theorem startDerivation_resa (s : State) : (startDerivation s).resa = s.resa := rfl
@[simp] theorem startDerivation_resb (s : State) : (startDerivation s).resb = s.resb := rfl
@[simp] theorem startDerivation_done (s : State) : (startDerivation s).done = s.done := rfl
@[simp] theorem startDerivation_kv (s : State) : (startDerivation s).kv = s.kv := rfl
@[simp] theorem startDerivation_err (s : State) : (startDerivation s).err = s.err := rfl
@[simp] theorem startDerivation_ecode (s : State) : (startDerivation s).ecode = s.ecode := rfl
@[simp] theorem startDerivation_fsm (s : State) : (startDerivation s).fsm = .ksPc1 := rfl
@[simp] theorem startDerivation_round (s : State) : (startDerivation s).round = s.round := rfl
@[simp] theorem startDerivation_kscnt (s : State) : (startDerivation s).kscnt = 0 := rfl
@[simp] theorem startDerivation_die (s : State) : (startDerivation s).die = s.die := rfl
@[simp] theorem startDerivation_eie (s : State) : (startDerivation s).eie = s.eie := rfl
@[simp] theorem startDerivation_c (s : State) : (startDerivation s).c = cHalf (pc1F s.key) := rfl
@[simp] theorem startDerivation_d (s : State) : (startDerivation s).d = dHalf (pc1F s.key) := rfl
@[simp] theorem startDerivation_l (s : State) : (startDerivation s).l = s.l := rfl
@[simp] theorem startDerivation_r (s : State) : (startDerivation s).r = s.r := rfl
@[simp] theorem startDerivation_sk (s : State) : (startDerivation s).sk = s.sk := rfl
@[simp] theorem startDerivation_inputs (s : State) : (startDerivation s).inputs = s.inputs := rfl
@[simp] theorem startDerivation_readData (s : State) : (startDerivation s).readData = s.readData :=
  rfl

/-! ### derivationStep -/

@[simp] theorem derivationStep_key (i : RoundIx) (s : State) : (derivationStep i s).key = s.key :=
  rfl
@[simp] theorem derivationStep_din (i : RoundIx) (s : State) : (derivationStep i s).din = s.din :=
  rfl
@[simp] theorem derivationStep_dout (i : RoundIx) (s : State) : (derivationStep i s).dout = s.dout :=
  rfl
@[simp] theorem derivationStep_lastcmd (i : RoundIx) (s : State) : (derivationStep i s).lastcmd = s.lastcmd :=
  rfl
@[simp] theorem derivationStep_opa (i : RoundIx) (s : State) : (derivationStep i s).opa = s.opa :=
  rfl
@[simp] theorem derivationStep_opb (i : RoundIx) (s : State) : (derivationStep i s).opb = s.opb :=
  rfl
@[simp] theorem derivationStep_resa (i : RoundIx) (s : State) : (derivationStep i s).resa = s.resa :=
  rfl
@[simp] theorem derivationStep_resb (i : RoundIx) (s : State) : (derivationStep i s).resb = s.resb :=
  rfl
@[simp] theorem derivationStep_done (i : RoundIx) (s : State) : (derivationStep i s).done = s.done :=
  rfl
@[simp] theorem derivationStep_kv (i : RoundIx) (s : State) : (derivationStep i s).kv = if i.val + 1 = 16 then true else s.kv :=
  rfl
@[simp] theorem derivationStep_err (i : RoundIx) (s : State) : (derivationStep i s).err = s.err :=
  rfl
@[simp] theorem derivationStep_ecode (i : RoundIx) (s : State) : (derivationStep i s).ecode = s.ecode :=
  rfl
@[simp] theorem derivationStep_fsm (i : RoundIx) (s : State) : (derivationStep i s).fsm = .ksRot :=
  rfl
@[simp] theorem derivationStep_round (i : RoundIx) (s : State) : (derivationStep i s).round = s.round :=
  rfl
@[simp] theorem derivationStep_kscnt (i : RoundIx) (s : State) : (derivationStep i s).kscnt = BitVec.ofNat 5 (i.val + 1) :=
  rfl
@[simp] theorem derivationStep_die (i : RoundIx) (s : State) : (derivationStep i s).die = s.die :=
  rfl
@[simp] theorem derivationStep_eie (i : RoundIx) (s : State) : (derivationStep i s).eie = s.eie :=
  rfl
@[simp] theorem derivationStep_c (i : RoundIx) (s : State) : (derivationStep i s).c = cHalf (rotateHalves (halves s) i) :=
  rfl
@[simp] theorem derivationStep_d (i : RoundIx) (s : State) : (derivationStep i s).d = dHalf (rotateHalves (halves s) i) :=
  rfl
@[simp] theorem derivationStep_l (i : RoundIx) (s : State) : (derivationStep i s).l = s.l := rfl
@[simp] theorem derivationStep_r (i : RoundIx) (s : State) : (derivationStep i s).r = s.r := rfl
@[simp] theorem derivationStep_sk (i : RoundIx) (s : State) : (derivationStep i s).sk = s.sk.set i.val (pc2F (rotateHalves (halves s) i)) i.isLt :=
  rfl
@[simp] theorem derivationStep_inputs (i : RoundIx) (s : State) : (derivationStep i s).inputs = s.inputs :=
  rfl
@[simp] theorem derivationStep_readData (i : RoundIx) (s : State) : (derivationStep i s).readData = s.readData :=
  rfl

/-! ### endDerivation -/

@[simp] theorem endDerivation_key (b : Bool) (s : State) : (endDerivation b s).key = s.key := rfl
@[simp] theorem endDerivation_din (b : Bool) (s : State) : (endDerivation b s).din = s.din := rfl
@[simp] theorem endDerivation_dout (b : Bool) (s : State) : (endDerivation b s).dout = s.dout := rfl
@[simp] theorem endDerivation_lastcmd (b : Bool) (s : State) : (endDerivation b s).lastcmd = s.lastcmd :=
  rfl
@[simp] theorem endDerivation_opa (b : Bool) (s : State) : (endDerivation b s).opa = s.opa := rfl
@[simp] theorem endDerivation_opb (b : Bool) (s : State) : (endDerivation b s).opb = s.opb := rfl
@[simp] theorem endDerivation_resa (b : Bool) (s : State) : (endDerivation b s).resa = s.resa := rfl
@[simp] theorem endDerivation_resb (b : Bool) (s : State) : (endDerivation b s).resb = s.resb := rfl
@[simp] theorem endDerivation_done (b : Bool) (s : State) : (endDerivation b s).done = s.done := rfl
@[simp] theorem endDerivation_kv (b : Bool) (s : State) : (endDerivation b s).kv = s.kv := rfl
@[simp] theorem endDerivation_err (b : Bool) (s : State) : (endDerivation b s).err = s.err := rfl
@[simp] theorem endDerivation_ecode (b : Bool) (s : State) : (endDerivation b s).ecode = s.ecode :=
  rfl
@[simp] theorem endDerivation_fsm (b : Bool) (s : State) : (endDerivation b s).fsm = if b then .permuted else .exec :=
  rfl
@[simp] theorem endDerivation_round (b : Bool) (s : State) : (endDerivation b s).round = s.round :=
  rfl
@[simp] theorem endDerivation_kscnt (b : Bool) (s : State) : (endDerivation b s).kscnt = s.kscnt :=
  rfl
@[simp] theorem endDerivation_die (b : Bool) (s : State) : (endDerivation b s).die = s.die := rfl
@[simp] theorem endDerivation_eie (b : Bool) (s : State) : (endDerivation b s).eie = s.eie := rfl
@[simp] theorem endDerivation_c (b : Bool) (s : State) : (endDerivation b s).c = s.c := rfl
@[simp] theorem endDerivation_d (b : Bool) (s : State) : (endDerivation b s).d = s.d := rfl
@[simp] theorem endDerivation_l (b : Bool) (s : State) : (endDerivation b s).l = s.l := rfl
@[simp] theorem endDerivation_r (b : Bool) (s : State) : (endDerivation b s).r = s.r := rfl
@[simp] theorem endDerivation_sk (b : Bool) (s : State) : (endDerivation b s).sk = s.sk := rfl
@[simp] theorem endDerivation_inputs (b : Bool) (s : State) : (endDerivation b s).inputs = s.inputs :=
  rfl
@[simp] theorem endDerivation_readData (b : Bool) (s : State) : (endDerivation b s).readData = s.readData :=
  rfl

/-! ### feistelRound -/

@[simp] theorem feistelRound_key (k : Subkey) (n : BitVec 5) (s : State) : (feistelRound k n s).key = s.key :=
  rfl
@[simp] theorem feistelRound_din (k : Subkey) (n : BitVec 5) (s : State) : (feistelRound k n s).din = s.din :=
  rfl
@[simp] theorem feistelRound_dout (k : Subkey) (n : BitVec 5) (s : State) : (feistelRound k n s).dout = s.dout :=
  rfl
@[simp] theorem feistelRound_lastcmd (k : Subkey) (n : BitVec 5) (s : State) : (feistelRound k n s).lastcmd = s.lastcmd :=
  rfl
@[simp] theorem feistelRound_opa (k : Subkey) (n : BitVec 5) (s : State) : (feistelRound k n s).opa = s.opa :=
  rfl
@[simp] theorem feistelRound_opb (k : Subkey) (n : BitVec 5) (s : State) : (feistelRound k n s).opb = s.opb :=
  rfl
@[simp] theorem feistelRound_resa (k : Subkey) (n : BitVec 5) (s : State) : (feistelRound k n s).resa = s.resa :=
  rfl
@[simp] theorem feistelRound_resb (k : Subkey) (n : BitVec 5) (s : State) : (feistelRound k n s).resb = s.resb :=
  rfl
@[simp] theorem feistelRound_done (k : Subkey) (n : BitVec 5) (s : State) : (feistelRound k n s).done = s.done :=
  rfl
@[simp] theorem feistelRound_kv (k : Subkey) (n : BitVec 5) (s : State) : (feistelRound k n s).kv = s.kv :=
  rfl
@[simp] theorem feistelRound_err (k : Subkey) (n : BitVec 5) (s : State) : (feistelRound k n s).err = s.err :=
  rfl
@[simp] theorem feistelRound_ecode (k : Subkey) (n : BitVec 5) (s : State) : (feistelRound k n s).ecode = s.ecode :=
  rfl
@[simp] theorem feistelRound_fsm (k : Subkey) (n : BitVec 5) (s : State) : (feistelRound k n s).fsm = .round :=
  rfl
@[simp] theorem feistelRound_round (k : Subkey) (n : BitVec 5) (s : State) : (feistelRound k n s).round = n :=
  rfl
@[simp] theorem feistelRound_kscnt (k : Subkey) (n : BitVec 5) (s : State) : (feistelRound k n s).kscnt = s.kscnt :=
  rfl
@[simp] theorem feistelRound_die (k : Subkey) (n : BitVec 5) (s : State) : (feistelRound k n s).die = s.die :=
  rfl
@[simp] theorem feistelRound_eie (k : Subkey) (n : BitVec 5) (s : State) : (feistelRound k n s).eie = s.eie :=
  rfl
@[simp] theorem feistelRound_c (k : Subkey) (n : BitVec 5) (s : State) : (feistelRound k n s).c = s.c :=
  rfl
@[simp] theorem feistelRound_d (k : Subkey) (n : BitVec 5) (s : State) : (feistelRound k n s).d = s.d :=
  rfl
@[simp] theorem feistelRound_l (k : Subkey) (n : BitVec 5) (s : State) : (feistelRound k n s).l = hi32 (roundF (block s) k) :=
  rfl
@[simp] theorem feistelRound_r (k : Subkey) (n : BitVec 5) (s : State) : (feistelRound k n s).r = lo32 (roundF (block s) k) :=
  rfl
@[simp] theorem feistelRound_sk (k : Subkey) (n : BitVec 5) (s : State) : (feistelRound k n s).sk = s.sk :=
  rfl
@[simp] theorem feistelRound_inputs (k : Subkey) (n : BitVec 5) (s : State) : (feistelRound k n s).inputs = s.inputs :=
  rfl
@[simp] theorem feistelRound_readData (k : Subkey) (n : BitVec 5) (s : State) : (feistelRound k n s).readData = s.readData :=
  rfl

/-! ### initializedStep -/

@[simp] theorem initializedStep_key (s : State) : (initializedStep s).key = s.key := rfl
@[simp] theorem initializedStep_din (s : State) : (initializedStep s).din = s.din := rfl
@[simp] theorem initializedStep_dout (s : State) : (initializedStep s).dout = s.dout := rfl
@[simp] theorem initializedStep_lastcmd (s : State) : (initializedStep s).lastcmd = s.lastcmd := rfl
@[simp] theorem initializedStep_opa (s : State) : (initializedStep s).opa = s.opa := rfl
@[simp] theorem initializedStep_opb (s : State) : (initializedStep s).opb = s.opb := rfl
@[simp] theorem initializedStep_resa (s : State) : (initializedStep s).resa = s.resa := rfl
@[simp] theorem initializedStep_resb (s : State) : (initializedStep s).resb = s.resb := rfl
@[simp] theorem initializedStep_done (s : State) : (initializedStep s).done = s.done := rfl
@[simp] theorem initializedStep_kv (s : State) : (initializedStep s).kv = s.kv := rfl
@[simp] theorem initializedStep_err (s : State) : (initializedStep s).err = s.err := rfl
@[simp] theorem initializedStep_ecode (s : State) : (initializedStep s).ecode = s.ecode := rfl
@[simp] theorem initializedStep_fsm (s : State) : (initializedStep s).fsm = .permuted := rfl
@[simp] theorem initializedStep_round (s : State) : (initializedStep s).round = s.round := rfl
@[simp] theorem initializedStep_kscnt (s : State) : (initializedStep s).kscnt = s.kscnt := rfl
@[simp] theorem initializedStep_die (s : State) : (initializedStep s).die = s.die := rfl
@[simp] theorem initializedStep_eie (s : State) : (initializedStep s).eie = s.eie := rfl
@[simp] theorem initializedStep_c (s : State) : (initializedStep s).c = s.c := rfl
@[simp] theorem initializedStep_d (s : State) : (initializedStep s).d = s.d := rfl
@[simp] theorem initializedStep_l (s : State) : (initializedStep s).l = hi32 (ipF s.din) := rfl
@[simp] theorem initializedStep_r (s : State) : (initializedStep s).r = lo32 (ipF s.din) := rfl
@[simp] theorem initializedStep_sk (s : State) : (initializedStep s).sk = s.sk := rfl
@[simp] theorem initializedStep_inputs (s : State) : (initializedStep s).inputs = s.inputs := rfl
@[simp] theorem initializedStep_readData (s : State) : (initializedStep s).readData = s.readData :=
  rfl

/-! ### swapStep -/

@[simp] theorem swapStep_key (s : State) : (swapStep s).key = s.key := rfl
@[simp] theorem swapStep_din (s : State) : (swapStep s).din = s.din := rfl
@[simp] theorem swapStep_dout (s : State) : (swapStep s).dout = s.dout := rfl
@[simp] theorem swapStep_lastcmd (s : State) : (swapStep s).lastcmd = s.lastcmd := rfl
@[simp] theorem swapStep_opa (s : State) : (swapStep s).opa = s.opa := rfl
@[simp] theorem swapStep_opb (s : State) : (swapStep s).opb = s.opb := rfl
@[simp] theorem swapStep_resa (s : State) : (swapStep s).resa = s.resa := rfl
@[simp] theorem swapStep_resb (s : State) : (swapStep s).resb = s.resb := rfl
@[simp] theorem swapStep_done (s : State) : (swapStep s).done = s.done := rfl
@[simp] theorem swapStep_kv (s : State) : (swapStep s).kv = s.kv := rfl
@[simp] theorem swapStep_err (s : State) : (swapStep s).err = s.err := rfl
@[simp] theorem swapStep_ecode (s : State) : (swapStep s).ecode = s.ecode := rfl
@[simp] theorem swapStep_fsm (s : State) : (swapStep s).fsm = .swapped := rfl
@[simp] theorem swapStep_round (s : State) : (swapStep s).round = s.round := rfl
@[simp] theorem swapStep_kscnt (s : State) : (swapStep s).kscnt = s.kscnt := rfl
@[simp] theorem swapStep_die (s : State) : (swapStep s).die = s.die := rfl
@[simp] theorem swapStep_eie (s : State) : (swapStep s).eie = s.eie := rfl
@[simp] theorem swapStep_c (s : State) : (swapStep s).c = s.c := rfl
@[simp] theorem swapStep_d (s : State) : (swapStep s).d = s.d := rfl
@[simp] theorem swapStep_l (s : State) : (swapStep s).l = hi32 (swapHalves (block s)) := rfl
@[simp] theorem swapStep_r (s : State) : (swapStep s).r = lo32 (swapHalves (block s)) := rfl
@[simp] theorem swapStep_sk (s : State) : (swapStep s).sk = s.sk := rfl
@[simp] theorem swapStep_inputs (s : State) : (swapStep s).inputs = s.inputs := rfl
@[simp] theorem swapStep_readData (s : State) : (swapStep s).readData = s.readData := rfl

/-! ### swappedStep -/

@[simp] theorem swappedStep_key (s : State) : (swappedStep s).key = s.key := rfl
@[simp] theorem swappedStep_din (s : State) : (swappedStep s).din = s.din := rfl
@[simp] theorem swappedStep_dout (s : State) : (swappedStep s).dout = fpF (block s) := rfl
@[simp] theorem swappedStep_lastcmd (s : State) : (swappedStep s).lastcmd = s.lastcmd := rfl
@[simp] theorem swappedStep_opa (s : State) : (swappedStep s).opa = s.opa := rfl
@[simp] theorem swappedStep_opb (s : State) : (swappedStep s).opb = s.opb := rfl
@[simp] theorem swappedStep_resa (s : State) : (swappedStep s).resa = s.resa := rfl
@[simp] theorem swappedStep_resb (s : State) : (swappedStep s).resb = s.resb := rfl
@[simp] theorem swappedStep_done (s : State) : (swappedStep s).done = true := rfl
@[simp] theorem swappedStep_kv (s : State) : (swappedStep s).kv = s.kv := rfl
@[simp] theorem swappedStep_err (s : State) : (swappedStep s).err = s.err := rfl
@[simp] theorem swappedStep_ecode (s : State) : (swappedStep s).ecode = s.ecode := rfl
@[simp] theorem swappedStep_fsm (s : State) : (swappedStep s).fsm = .finalized := rfl
@[simp] theorem swappedStep_round (s : State) : (swappedStep s).round = s.round := rfl
@[simp] theorem swappedStep_kscnt (s : State) : (swappedStep s).kscnt = s.kscnt := rfl
@[simp] theorem swappedStep_die (s : State) : (swappedStep s).die = s.die := rfl
@[simp] theorem swappedStep_eie (s : State) : (swappedStep s).eie = s.eie := rfl
@[simp] theorem swappedStep_c (s : State) : (swappedStep s).c = s.c := rfl
@[simp] theorem swappedStep_d (s : State) : (swappedStep s).d = s.d := rfl
@[simp] theorem swappedStep_l (s : State) : (swappedStep s).l = s.l := rfl
@[simp] theorem swappedStep_r (s : State) : (swappedStep s).r = s.r := rfl
@[simp] theorem swappedStep_sk (s : State) : (swappedStep s).sk = s.sk := rfl
@[simp] theorem swappedStep_inputs (s : State) : (swappedStep s).inputs = s.inputs := rfl
@[simp] theorem swappedStep_readData (s : State) : (swappedStep s).readData = s.readData := rfl

/-! ### writeStatus -/

@[simp] theorem writeStatus_key (v : Word) (s : State) : (writeStatus v s).key = s.key := rfl
@[simp] theorem writeStatus_din (v : Word) (s : State) : (writeStatus v s).din = s.din := rfl
@[simp] theorem writeStatus_dout (v : Word) (s : State) : (writeStatus v s).dout = s.dout := rfl
@[simp] theorem writeStatus_lastcmd (v : Word) (s : State) : (writeStatus v s).lastcmd = s.lastcmd :=
  rfl
@[simp] theorem writeStatus_opa (v : Word) (s : State) : (writeStatus v s).opa = s.opa := rfl
@[simp] theorem writeStatus_opb (v : Word) (s : State) : (writeStatus v s).opb = s.opb := rfl
@[simp] theorem writeStatus_resa (v : Word) (s : State) : (writeStatus v s).resa = s.resa := rfl
@[simp] theorem writeStatus_resb (v : Word) (s : State) : (writeStatus v s).resb = s.resb := rfl
@[simp] theorem writeStatus_done (v : Word) (s : State) : (writeStatus v s).done = if v.getLsbD 1 then false else s.done :=
  rfl
@[simp] theorem writeStatus_kv (v : Word) (s : State) : (writeStatus v s).kv = s.kv := rfl
@[simp] theorem writeStatus_err (v : Word) (s : State) : (writeStatus v s).err = if v.getLsbD 3 then false else s.err :=
  rfl
@[simp] theorem writeStatus_ecode (v : Word) (s : State) : (writeStatus v s).ecode = if v.getLsbD 3 then 0 else s.ecode :=
  rfl
@[simp] theorem writeStatus_fsm (v : Word) (s : State) : (writeStatus v s).fsm = s.fsm := rfl
@[simp] theorem writeStatus_round (v : Word) (s : State) : (writeStatus v s).round = s.round := rfl
@[simp] theorem writeStatus_kscnt (v : Word) (s : State) : (writeStatus v s).kscnt = s.kscnt := rfl
@[simp] theorem writeStatus_die (v : Word) (s : State) : (writeStatus v s).die = s.die := rfl
@[simp] theorem writeStatus_eie (v : Word) (s : State) : (writeStatus v s).eie = s.eie := rfl
@[simp] theorem writeStatus_c (v : Word) (s : State) : (writeStatus v s).c = s.c := rfl
@[simp] theorem writeStatus_d (v : Word) (s : State) : (writeStatus v s).d = s.d := rfl
@[simp] theorem writeStatus_l (v : Word) (s : State) : (writeStatus v s).l = s.l := rfl
@[simp] theorem writeStatus_r (v : Word) (s : State) : (writeStatus v s).r = s.r := rfl
@[simp] theorem writeStatus_sk (v : Word) (s : State) : (writeStatus v s).sk = s.sk := rfl
@[simp] theorem writeStatus_inputs (v : Word) (s : State) : (writeStatus v s).inputs = s.inputs :=
  rfl
@[simp] theorem writeStatus_readData (v : Word) (s : State) : (writeStatus v s).readData = s.readData :=
  rfl

/-! ### writeConfig -/

@[simp] theorem writeConfig_key (v : Word) (s : State) : (writeConfig v s).key = s.key := rfl
@[simp] theorem writeConfig_din (v : Word) (s : State) : (writeConfig v s).din = s.din := rfl
@[simp] theorem writeConfig_dout (v : Word) (s : State) : (writeConfig v s).dout = s.dout := rfl
@[simp] theorem writeConfig_lastcmd (v : Word) (s : State) : (writeConfig v s).lastcmd = s.lastcmd :=
  rfl
@[simp] theorem writeConfig_opa (v : Word) (s : State) : (writeConfig v s).opa = s.opa := rfl
@[simp] theorem writeConfig_opb (v : Word) (s : State) : (writeConfig v s).opb = s.opb := rfl
@[simp] theorem writeConfig_resa (v : Word) (s : State) : (writeConfig v s).resa = s.resa := rfl
@[simp] theorem writeConfig_resb (v : Word) (s : State) : (writeConfig v s).resb = s.resb := rfl
@[simp] theorem writeConfig_done (v : Word) (s : State) : (writeConfig v s).done = s.done := rfl
@[simp] theorem writeConfig_kv (v : Word) (s : State) : (writeConfig v s).kv = s.kv := rfl
@[simp] theorem writeConfig_err (v : Word) (s : State) : (writeConfig v s).err = s.err := rfl
@[simp] theorem writeConfig_ecode (v : Word) (s : State) : (writeConfig v s).ecode = s.ecode := rfl
@[simp] theorem writeConfig_fsm (v : Word) (s : State) : (writeConfig v s).fsm = s.fsm := rfl
@[simp] theorem writeConfig_round (v : Word) (s : State) : (writeConfig v s).round = s.round := rfl
@[simp] theorem writeConfig_kscnt (v : Word) (s : State) : (writeConfig v s).kscnt = s.kscnt := rfl
@[simp] theorem writeConfig_die (v : Word) (s : State) : (writeConfig v s).die = v.getLsbD 0 := rfl
@[simp] theorem writeConfig_eie (v : Word) (s : State) : (writeConfig v s).eie = v.getLsbD 1 := rfl
@[simp] theorem writeConfig_c (v : Word) (s : State) : (writeConfig v s).c = s.c := rfl
@[simp] theorem writeConfig_d (v : Word) (s : State) : (writeConfig v s).d = s.d := rfl
@[simp] theorem writeConfig_l (v : Word) (s : State) : (writeConfig v s).l = s.l := rfl
@[simp] theorem writeConfig_r (v : Word) (s : State) : (writeConfig v s).r = s.r := rfl
@[simp] theorem writeConfig_sk (v : Word) (s : State) : (writeConfig v s).sk = s.sk := rfl
@[simp] theorem writeConfig_inputs (v : Word) (s : State) : (writeConfig v s).inputs = s.inputs :=
  rfl
@[simp] theorem writeConfig_readData (v : Word) (s : State) : (writeConfig v s).readData = s.readData :=
  rfl

/-! ### accept -/

@[simp] theorem accept_key (v : Word) (s : State) : (accept v s).key = s.key := by
  unfold accept; split <;> simp_all
@[simp] theorem accept_din (v : Word) (s : State) : (accept v s).din = s.din := by
  unfold accept; split <;> simp_all
@[simp] theorem accept_dout (v : Word) (s : State) : (accept v s).dout = s.dout := by
  unfold accept; split <;> simp_all
@[simp] theorem accept_lastcmd (v : Word) (s : State) : (accept v s).lastcmd = v := by
  unfold accept; split <;> simp_all
@[simp] theorem accept_opa (v : Word) (s : State) : (accept v s).opa = s.opa := by
  unfold accept; split <;> simp_all
@[simp] theorem accept_opb (v : Word) (s : State) : (accept v s).opb = s.opb := by
  unfold accept; split <;> simp_all
@[simp] theorem accept_resa (v : Word) (s : State) : (accept v s).resa = s.resa := by
  unfold accept; split <;> simp_all
@[simp] theorem accept_resb (v : Word) (s : State) : (accept v s).resb = s.resb := by
  unfold accept; split <;> simp_all
@[simp] theorem accept_done (v : Word) (s : State) : (accept v s).done = false := by
  unfold accept; split <;> simp_all
@[simp] theorem accept_kv (v : Word) (s : State) : (accept v s).kv = s.kv := by
  unfold accept; split <;> simp_all
@[simp] theorem accept_err (v : Word) (s : State) : (accept v s).err = s.err := by
  unfold accept; split <;> simp_all
@[simp] theorem accept_ecode (v : Word) (s : State) : (accept v s).ecode = s.ecode := by
  unfold accept; split <;> simp_all
@[simp] theorem accept_fsm (v : Word) (s : State) : (accept v s).fsm = if opcOf v = 0x02 ∨ opcOf v = 0x03 then .initialized else .exec := by
  unfold accept; split <;> simp_all
@[simp] theorem accept_round (v : Word) (s : State) : (accept v s).round = if opcOf v = 0x02 ∨ opcOf v = 0x03 then 0 else s.round := by
  unfold accept; split <;> simp_all
@[simp] theorem accept_kscnt (v : Word) (s : State) : (accept v s).kscnt = s.kscnt := by
  unfold accept; split <;> simp_all
@[simp] theorem accept_die (v : Word) (s : State) : (accept v s).die = s.die := by
  unfold accept; split <;> simp_all
@[simp] theorem accept_eie (v : Word) (s : State) : (accept v s).eie = s.eie := by
  unfold accept; split <;> simp_all
@[simp] theorem accept_c (v : Word) (s : State) : (accept v s).c = s.c := by
  unfold accept; split <;> simp_all
@[simp] theorem accept_d (v : Word) (s : State) : (accept v s).d = s.d := by
  unfold accept; split <;> simp_all
@[simp] theorem accept_l (v : Word) (s : State) : (accept v s).l = s.l := by
  unfold accept; split <;> simp_all
@[simp] theorem accept_r (v : Word) (s : State) : (accept v s).r = s.r := by
  unfold accept; split <;> simp_all
@[simp] theorem accept_sk (v : Word) (s : State) : (accept v s).sk = s.sk := by
  unfold accept; split <;> simp_all
@[simp] theorem accept_inputs (v : Word) (s : State) : (accept v s).inputs = s.inputs := by
  unfold accept; split <;> simp_all
@[simp] theorem accept_readData (v : Word) (s : State) : (accept v s).readData = s.readData := by
  unfold accept; split <;> simp_all

/-! ### finishPrimitive -/

@[simp] theorem finishPrimitive_key (ok : Bool) (v : Word) (s : State) : (finishPrimitive ok v s).key = s.key :=
  by unfold finishPrimitive; split <;> simp_all
@[simp] theorem finishPrimitive_din (ok : Bool) (v : Word) (s : State) : (finishPrimitive ok v s).din = s.din :=
  by unfold finishPrimitive; split <;> simp_all
@[simp] theorem finishPrimitive_dout (ok : Bool) (v : Word) (s : State) : (finishPrimitive ok v s).dout = s.dout :=
  by unfold finishPrimitive; split <;> simp_all
@[simp] theorem finishPrimitive_lastcmd (ok : Bool) (v : Word) (s : State) : (finishPrimitive ok v s).lastcmd = s.lastcmd :=
  by unfold finishPrimitive; split <;> simp_all
@[simp] theorem finishPrimitive_opa (ok : Bool) (v : Word) (s : State) : (finishPrimitive ok v s).opa = s.opa :=
  by unfold finishPrimitive; split <;> simp_all
@[simp] theorem finishPrimitive_opb (ok : Bool) (v : Word) (s : State) : (finishPrimitive ok v s).opb = s.opb :=
  by unfold finishPrimitive; split <;> simp_all
@[simp] theorem finishPrimitive_resa (ok : Bool) (v : Word) (s : State) : (finishPrimitive ok v s).resa = if ok then v else s.resa :=
  by unfold finishPrimitive; split <;> simp_all
@[simp] theorem finishPrimitive_resb (ok : Bool) (v : Word) (s : State) : (finishPrimitive ok v s).resb = s.resb :=
  by unfold finishPrimitive; split <;> simp_all
@[simp] theorem finishPrimitive_done (ok : Bool) (v : Word) (s : State) : (finishPrimitive ok v s).done = true :=
  by unfold finishPrimitive; split <;> simp_all
@[simp] theorem finishPrimitive_kv (ok : Bool) (v : Word) (s : State) : (finishPrimitive ok v s).kv = s.kv :=
  by unfold finishPrimitive; split <;> simp_all
@[simp] theorem finishPrimitive_err (ok : Bool) (v : Word) (s : State) : (finishPrimitive ok v s).err = if ok then s.err else true :=
  by unfold finishPrimitive; split <;> simp_all
@[simp] theorem finishPrimitive_ecode (ok : Bool) (v : Word) (s : State) : (finishPrimitive ok v s).ecode = if ok then s.ecode else if s.err then s.ecode else 1 :=
  by unfold finishPrimitive; split <;> simp_all [errorCode]
@[simp] theorem finishPrimitive_fsm (ok : Bool) (v : Word) (s : State) : (finishPrimitive ok v s).fsm = .finalized :=
  by unfold finishPrimitive; split <;> simp_all
@[simp] theorem finishPrimitive_round (ok : Bool) (v : Word) (s : State) : (finishPrimitive ok v s).round = s.round :=
  by unfold finishPrimitive; split <;> simp_all
@[simp] theorem finishPrimitive_kscnt (ok : Bool) (v : Word) (s : State) : (finishPrimitive ok v s).kscnt = s.kscnt :=
  by unfold finishPrimitive; split <;> simp_all
@[simp] theorem finishPrimitive_die (ok : Bool) (v : Word) (s : State) : (finishPrimitive ok v s).die = s.die :=
  by unfold finishPrimitive; split <;> simp_all
@[simp] theorem finishPrimitive_eie (ok : Bool) (v : Word) (s : State) : (finishPrimitive ok v s).eie = s.eie :=
  by unfold finishPrimitive; split <;> simp_all
@[simp] theorem finishPrimitive_c (ok : Bool) (v : Word) (s : State) : (finishPrimitive ok v s).c = s.c :=
  by unfold finishPrimitive; split <;> simp_all
@[simp] theorem finishPrimitive_d (ok : Bool) (v : Word) (s : State) : (finishPrimitive ok v s).d = s.d :=
  by unfold finishPrimitive; split <;> simp_all
@[simp] theorem finishPrimitive_l (ok : Bool) (v : Word) (s : State) : (finishPrimitive ok v s).l = s.l :=
  by unfold finishPrimitive; split <;> simp_all
@[simp] theorem finishPrimitive_r (ok : Bool) (v : Word) (s : State) : (finishPrimitive ok v s).r = s.r :=
  by unfold finishPrimitive; split <;> simp_all
@[simp] theorem finishPrimitive_sk (ok : Bool) (v : Word) (s : State) : (finishPrimitive ok v s).sk = s.sk :=
  by unfold finishPrimitive; split <;> simp_all
@[simp] theorem finishPrimitive_inputs (ok : Bool) (v : Word) (s : State) : (finishPrimitive ok v s).inputs = s.inputs :=
  by unfold finishPrimitive; split <;> simp_all
@[simp] theorem finishPrimitive_readData (ok : Bool) (v : Word) (s : State) : (finishPrimitive ok v s).readData = s.readData :=
  by unfold finishPrimitive; split <;> simp_all

/-! ### resetEngine -/

@[simp] theorem resetEngine_key (s : State) : (resetEngine s).key = State.reset.key := rfl
@[simp] theorem resetEngine_din (s : State) : (resetEngine s).din = State.reset.din := rfl
@[simp] theorem resetEngine_dout (s : State) : (resetEngine s).dout = State.reset.dout := rfl
@[simp] theorem resetEngine_lastcmd (s : State) : (resetEngine s).lastcmd = State.reset.lastcmd :=
  rfl
@[simp] theorem resetEngine_opa (s : State) : (resetEngine s).opa = State.reset.opa := rfl
@[simp] theorem resetEngine_opb (s : State) : (resetEngine s).opb = State.reset.opb := rfl
@[simp] theorem resetEngine_resa (s : State) : (resetEngine s).resa = State.reset.resa := rfl
@[simp] theorem resetEngine_resb (s : State) : (resetEngine s).resb = State.reset.resb := rfl
@[simp] theorem resetEngine_done (s : State) : (resetEngine s).done = State.reset.done := rfl
@[simp] theorem resetEngine_kv (s : State) : (resetEngine s).kv = State.reset.kv := rfl
@[simp] theorem resetEngine_err (s : State) : (resetEngine s).err = State.reset.err := rfl
@[simp] theorem resetEngine_ecode (s : State) : (resetEngine s).ecode = State.reset.ecode := rfl
@[simp] theorem resetEngine_fsm (s : State) : (resetEngine s).fsm = State.reset.fsm := rfl
@[simp] theorem resetEngine_round (s : State) : (resetEngine s).round = State.reset.round := rfl
@[simp] theorem resetEngine_kscnt (s : State) : (resetEngine s).kscnt = State.reset.kscnt := rfl
@[simp] theorem resetEngine_die (s : State) : (resetEngine s).die = State.reset.die := rfl
@[simp] theorem resetEngine_eie (s : State) : (resetEngine s).eie = State.reset.eie := rfl
@[simp] theorem resetEngine_c (s : State) : (resetEngine s).c = State.reset.c := rfl
@[simp] theorem resetEngine_d (s : State) : (resetEngine s).d = State.reset.d := rfl
@[simp] theorem resetEngine_l (s : State) : (resetEngine s).l = State.reset.l := rfl
@[simp] theorem resetEngine_r (s : State) : (resetEngine s).r = State.reset.r := rfl
@[simp] theorem resetEngine_sk (s : State) : (resetEngine s).sk = State.reset.sk := rfl
@[simp] theorem resetEngine_inputs (s : State) : (resetEngine s).inputs = s.inputs := rfl
@[simp] theorem resetEngine_readData (s : State) : (resetEngine s).readData = s.readData := rfl

/-! ### softReset -/

@[simp] theorem softReset_key (s : State) : (softReset s).key = State.reset.key := rfl
@[simp] theorem softReset_din (s : State) : (softReset s).din = State.reset.din := rfl
@[simp] theorem softReset_dout (s : State) : (softReset s).dout = State.reset.dout := rfl
@[simp] theorem softReset_lastcmd (s : State) : (softReset s).lastcmd = State.reset.lastcmd := rfl
@[simp] theorem softReset_opa (s : State) : (softReset s).opa = State.reset.opa := rfl
@[simp] theorem softReset_opb (s : State) : (softReset s).opb = State.reset.opb := rfl
@[simp] theorem softReset_resa (s : State) : (softReset s).resa = State.reset.resa := rfl
@[simp] theorem softReset_resb (s : State) : (softReset s).resb = State.reset.resb := rfl
@[simp] theorem softReset_done (s : State) : (softReset s).done = State.reset.done := rfl
@[simp] theorem softReset_kv (s : State) : (softReset s).kv = State.reset.kv := rfl
@[simp] theorem softReset_err (s : State) : (softReset s).err = State.reset.err := rfl
@[simp] theorem softReset_ecode (s : State) : (softReset s).ecode = State.reset.ecode := rfl
@[simp] theorem softReset_fsm (s : State) : (softReset s).fsm = State.reset.fsm := rfl
@[simp] theorem softReset_round (s : State) : (softReset s).round = State.reset.round := rfl
@[simp] theorem softReset_kscnt (s : State) : (softReset s).kscnt = State.reset.kscnt := rfl
@[simp] theorem softReset_die (s : State) : (softReset s).die = s.die := rfl
@[simp] theorem softReset_eie (s : State) : (softReset s).eie = s.eie := rfl
@[simp] theorem softReset_c (s : State) : (softReset s).c = State.reset.c := rfl
@[simp] theorem softReset_d (s : State) : (softReset s).d = State.reset.d := rfl
@[simp] theorem softReset_l (s : State) : (softReset s).l = State.reset.l := rfl
@[simp] theorem softReset_r (s : State) : (softReset s).r = State.reset.r := rfl
@[simp] theorem softReset_sk (s : State) : (softReset s).sk = State.reset.sk := rfl
@[simp] theorem softReset_inputs (s : State) : (softReset s).inputs = s.inputs := rfl
@[simp] theorem softReset_readData (s : State) : (softReset s).readData = s.readData := rfl

end Sys2Proof.Machine
end

