-- ==== Sys2Proof/Laws/Ops.lean ====
section
/-! SUPPORT. What each shared operation can do, said once: an inversion of every step into its cases. Each
case is a constructor that names the guard and the next state. -/

namespace Sys2Proof.Machine

/-! ### Busy -/

theorem busy_eq_false (s : State) : busy s = false ↔ s.fsm = .idle ∨ s.fsm = .finalized := by
  unfold busy; cases s.fsm <;> simp

theorem busy_eq_true (s : State) : busy s = true ↔ s.fsm ≠ .idle ∧ s.fsm ≠ .finalized := by
  unfold busy; cases s.fsm <;> simp

/-- `busy` looks at FSM alone. -/
theorem busy_congr {s t : State} (h : s.fsm = t.fsm) : busy s = busy t := by simp [busy, h]

theorem busy_of_exec {s : State} (h : s.fsm = .exec) : busy s = true := by simp [busy, h]

/-! ### Errors and completion -/

/-- With no error recorded yet, `raise` records this one (R132). -/
theorem raiseError_of_clear {s : State} (e : EngineError) (h : s.err = false) :
    raiseError e s = { s with err := true, ecode := errorCode e } := by simp [raiseError, h]

/-- With an error recorded already, `raise` changes nothing (R132). -/
theorem raiseError_of_set {s : State} (e : EngineError) (h : s.err = true) : raiseError e s = s := by
  simp [raiseError, h]

/-- Both cases of `raise` at once (R132). -/
theorem raiseError_eq (e : EngineError) (s : State) :
    raiseError e s = { s with err := true, ecode := if s.err then s.ecode else errorCode e } := by
  cases h : s.err
  · simp [raiseError_of_clear e h]
  · cases s; simp_all [raiseError]

theorem finishPrimitive_true (v : Word) (s : State) :
    finishPrimitive true v s = finishedWith v s := rfl

theorem finishPrimitive_false (v : Word) (s : State) :
    finishPrimitive false v s = endedInWidthViolation s := by
  simp [finishPrimitive, complete, raiseError_eq, endedInWidthViolation, errorCode]

/-! ### The life of a command -/

/-- The subkey choice of a command (R118). -/
def kselOf : Instr → Option (State → RoundIx → Subkey)
  | .enc => some kselEnc
  | .dec => some kselDec
  | _ => none

theorem kselOf_isSome (i : Instr) : (kselOf i).isSome = true ↔ i = .enc ∨ i = .dec := by
  cases i <;> simp [kselOf]

/-- Every command but SRST is accepted when the engine is not busy. -/
theorem exec_of_not_busy {i : Instr} {s : State} (hi : i ≠ .srst) (hb : busy s = false) :
    exec i s = .next (issue i s) := by
  cases i <;> first | exact absurd rfl hi | exact if_neg (by simp [hb])

/-- Every command but SRST takes the controller's step when the engine is busy and not in EXEC. -/
theorem exec_of_running {i : Instr} {s : State} (f : State → Result) (hi : i ≠ .srst)
    (hb : busy s = true) (he : s.fsm ≠ .exec) : exec i s = runningStep (kselOf i) f s := by
  have key : ∀ k g, runningStep k g s = runningStep k f s := by
    intro k g; unfold runningStep; cases h : s.fsm <;> simp_all
  cases i <;> first | exact absurd rfl hi | exact (if_pos hb).trans (key _ _)

/-- What a command's EXEC step can do (R123). -/
inductive ExecCase (i : Instr) (s : State) : State → Prop
  /-- KV = 0: the derivation starts. -/
  | derive (h : i = .ksd ∨ (∃ rnd, i = .rnds rnd) ∨ (∃ rnd, i = .skrd rnd)) (hk : s.kv = false) :
      ExecCase i s (startDerivation s)
  /-- NOP, and KSD with KV = 1. -/
  | done (h : i = .nop ∨ (i = .ksd ∧ s.kv = true)) : ExecCase i s (complete s)
  /-- A result is written; RESB only by SPLIT. -/
  | result (v vb : Word) (hb : i ≠ .split → vb = s.resb) :
      ExecCase i s (finishPrimitive true v { s with resb := vb })
  /-- A width check fails, in one of the nine commands that check. -/
  | violation (h : i = .comb ∨ i = .exp ∨ i = .xork ∨ i = .sbox ∨ i = .permp ∨ i = .ffn ∨ i = .rndk ∨
      i = .pc2 ∨ ∃ rnd, i = .ksrot rnd) : ExecCase i s (finishPrimitive false 0 s)

theorem ExecCase.of_finish {i : Instr} {s t : State} (ok : Bool) (v : Word)
    (h : i = .comb ∨ i = .exp ∨ i = .xork ∨ i = .sbox ∨ i = .permp ∨ i = .ffn ∨ i = .rndk ∨
      i = .pc2 ∨ ∃ rnd, i = .ksrot rnd)
    (ht : Host.Outcome.next (φ := Fault) (ρ := Refusal) (finishPrimitive ok v s) = .next t) :
    ExecCase i s t := by
  injection ht with ht; subst ht
  cases ok
  · rw [finishPrimitive_false, ← finishPrimitive_false 0]; exact .violation h
  · exact .result v s.resb (fun _ => rfl)

/-- The EXEC step of every command falls under one of the four cases. -/
theorem exec_exec_case {i : Instr} {s t : State} (hi : i ≠ .srst) (hc : i ≠ .enc) (hd : i ≠ .dec)
    (hs : s.fsm = .exec) (h : exec i s = .next t) : ExecCase i s t := by
  have hb := busy_of_exec hs
  have unfold_step : ∀ k f, commandStep i k f s = f s := by
    intro k f; simp [commandStep, hb, runningStep, hs]
  have derive_or : ∀ use : State → Result, withSubkeys use s = .next t →
      (s.kv = false ∧ t = startDerivation s) ∨ (s.kv = true ∧ use s = .next t) := by
    intro use hu; unfold withSubkeys at hu; split at hu
    · exact .inr ⟨by assumption, hu⟩
    · injection hu with hu; exact .inl ⟨by simpa using ‹¬ s.kv = true›, hu.symm⟩
  cases i
  case srst => exact absurd rfl hi
  case enc => exact absurd rfl hc
  case dec => exact absurd rfl hd
  case nop =>
    simp only [exec, execNop, unfold_step] at h; injection h with h; subst h; exact .done (.inl rfl)
  case ksd =>
    simp only [exec, execKsd, unfold_step] at h
    obtain ⟨hk, rfl⟩ | ⟨hk, h⟩ := derive_or _ h
    · exact .derive (.inl rfl) hk
    · injection h with h; subst h; exact .done (.inr ⟨rfl, hk⟩)
  case ip => simp only [exec, execIp, unfold_step] at h; injection h with h; subst h; exact .result _ s.resb (fun _ => rfl)
  case fp => simp only [exec, execFp, unfold_step] at h; injection h with h; subst h; exact .result _ s.resb (fun _ => rfl)
  case swap => simp only [exec, execSwap, unfold_step] at h; injection h with h; subst h; exact .result _ s.resb (fun _ => rfl)
  case pc1 => simp only [exec, execPc1, unfold_step] at h; injection h with h; subst h; exact .result _ s.resb (fun _ => rfl)
  case split =>
    simp only [exec, execSplit, unfold_step] at h; injection h with h; subst h
    exact .result _ _ (fun hn => absurd rfl hn)
  case comb => simp only [exec, execComb, unfold_step] at h; exact .of_finish _ _ (by simp) h
  case exp => simp only [exec, execExp, unfold_step] at h; exact .of_finish _ _ (by simp) h
  case xork => simp only [exec, execXork, unfold_step] at h; exact .of_finish _ _ (by simp) h
  case sbox => simp only [exec, execSbox, unfold_step] at h; exact .of_finish _ _ (by simp) h
  case permp => simp only [exec, execPermp, unfold_step] at h; exact .of_finish _ _ (by simp) h
  case ffn => simp only [exec, execFfn, unfold_step] at h; exact .of_finish _ _ (by simp) h
  case rndk => simp only [exec, execRndk, unfold_step] at h; exact .of_finish _ _ (by simp) h
  case pc2 => simp only [exec, execPc2, unfold_step] at h; exact .of_finish _ _ (by simp) h
  case ksrot rnd =>
    simp only [exec, execKsrot, unfold_step] at h
    cases hr : roundIx rnd <;> simp only [hr] at h
    · cases h
    · exact .of_finish _ _ (by simp) h
  case rnds rnd =>
    simp only [exec, execRnds, unfold_step] at h
    obtain ⟨hk, rfl⟩ | ⟨hk, h⟩ := derive_or _ h
    · exact .derive (.inr (.inl ⟨rnd, rfl⟩)) hk
    · cases hr : roundIx rnd <;> simp only [hr] at h
      · cases h
      · injection h with h; subst h; exact .result _ s.resb (fun _ => rfl)
  case skrd rnd =>
    simp only [exec, execSkrd, unfold_step] at h
    obtain ⟨hk, rfl⟩ | ⟨hk, h⟩ := derive_or _ h
    · exact .derive (.inr (.inr ⟨rnd, rfl⟩)) hk
    · cases hr : roundIx rnd <;> simp only [hr] at h
      · cases h
      · injection h with h; subst h; exact .result _ s.resb (fun _ => rfl)

/-- What one engine step of a running command can do, row by row (R116). -/
inductive RunCase (ksel : Option (State → RoundIx → Subkey)) (f : State → Result) (s : State) :
    State → Prop
  | initialized (h : s.fsm = .initialized) : RunCase ksel f s (initializedStep s)
  | derive (h : s.fsm = .permuted) (hk : s.kv = false) : RunCase ksel f s (startDerivation s)
  | firstRound (sel : State → RoundIx → Subkey) (h : s.fsm = .permuted) (hk : s.kv = true)
      (hs : ksel = some sel) : RunCase ksel f s (feistelRound (sel s 0) 1 s)
  | nextRound (sel : State → RoundIx → Subkey) (h : s.fsm = .round) (hr : s.round.toNat < 16)
      (hs : ksel = some sel) :
      RunCase ksel f s (feistelRound (sel s ⟨s.round.toNat, hr⟩) (s.round + 1) s)
  | swap (h : s.fsm = .round) (hr : s.round = 16) : RunCase ksel f s (swapStep s)
  | swapped (h : s.fsm = .swapped) : RunCase ksel f s (swappedStep s)
  | derivation (h : s.fsm = .ksPc1 ∨ s.fsm = .ksRot) (hk : s.kscnt.toNat < 16) :
      RunCase ksel f s (derivationStep ⟨s.kscnt.toNat, hk⟩ s)
  | derivationEnd (h : s.fsm = .ksRot) (hk : s.kscnt = 16) :
      RunCase ksel f s (endDerivation ksel.isSome s)
  | exec (t : State) (h : s.fsm = .exec) (hf : f s = .next t) : RunCase ksel f s t
  | quiet (h : s.fsm = .idle ∨ s.fsm = .finalized) : RunCase ksel f s s

theorem runningStep_case {ksel : Option (State → RoundIx → Subkey)} {f : State → Result} {s t : State}
    (h : runningStep ksel f s = .next t) : RunCase ksel f s t := by
  unfold runningStep at h
  split at h
  next hf => injection h with h; subst h; exact .initialized hf
  next hf =>
    split at h
    next hk =>
      split at h
      next sel => injection h with h; subst h; exact .firstRound sel hf hk rfl
      next => cases h
    next hk => injection h with h; subst h; exact .derive hf (by simpa using hk)
  next hf =>
    split at h
    next hr =>
      split at h
      next sel => injection h with h; subst h; exact .nextRound sel hf hr rfl
      next => cases h
    next =>
      split at h
      next hr => injection h with h; subst h; exact .swap hf hr
      next => cases h
  next hf => injection h with h; subst h; exact .swapped hf
  next hf =>
    split at h
    next hk => injection h with h; subst h; exact .derivation (.inl hf) hk
    next => cases h
  next hf =>
    split at h
    next hk => injection h with h; subst h; exact .derivation (.inr hf) hk
    next =>
      split at h
      next hk => injection h with h; subst h; exact .derivationEnd hf hk
      next => cases h
  next hf => exact .exec t hf h
  next hf => injection h with h; subst h; exact .quiet (.inl hf)
  next hf => injection h with h; subst h; exact .quiet (.inr hf)

/-- What an engine step can do: nothing without BUSY; else the latched command's controller step or its
EXEC step; or, with no command latched, a row that does not ask for one (R116, R123). -/
inductive EngineCase (s : State) : State → Prop
  | quiet (h : busy s = false) : EngineCase s s
  | control (i : Instr) (t : State) (hb : busy s = true) (hl : decodeWord s.lastcmd = .ok i)
      (hi : i ≠ .srst) (he : s.fsm ≠ .exec) (h : RunCase (kselOf i) (fun _ => .fault .noTransition) s t) :
      EngineCase s t
  | exec (i : Instr) (t : State) (hl : decodeWord s.lastcmd = .ok i) (hi : i ≠ .srst)
      (hc : i ≠ .enc) (hd : i ≠ .dec) (he : s.fsm = .exec) (h : ExecCase i s t) : EngineCase s t
  | unlatched (t : State) (hb : busy s = true)
      (hl : ∀ i, decodeWord s.lastcmd = .ok i → i = .srst)
      (h : RunCase none (fun _ => .fault .noTransition) s t) : EngineCase s t

theorem engineStep_case {s t : State} (h : engineStep s = .next t) : EngineCase s t := by
  unfold engineStep at h
  split at h
  next hb =>
    split at h
    next e hd => exact .unlatched t hb (by simp [hd]) (runningStep_case h)
    next hd => exact .unlatched t hb (by simp [hd]) (runningStep_case h)
    next i hi hd =>
      have hi' : i ≠ .srst := fun e => hi (by rw [e])
      by_cases he : s.fsm = .exec
      · by_cases hc : i = .enc
        · subst hc; simp [exec, execEnc, commandStep, hb, runningStep, he, noExecStep] at h
        · by_cases hd' : i = .dec
          · subst hd'; simp [exec, execDec, commandStep, hb, runningStep, he, noExecStep] at h
          · exact .exec i t hd hi' hc hd' he (exec_exec_case hi' hc hd' he h)
      · rw [exec_of_running (fun _ => .fault .noTransition) hi' hb he] at h
        exact .control i t hb hd hi' he (runningStep_case h)
  next hb => injection h with h; subst h; exact .quiet (by simpa using hb)

end Sys2Proof.Machine
end

