-- ==== Sys2Proof/Laws/Invariant.lean ====
section
/-! SUPPORT. The invariant looks only at the fields it names, and asks nothing of a state that is not busy
beyond ranges, cache and latch. -/

namespace Sys2Proof.Machine

theorem cacheInv_congr {s t : State} (hk : t.key = s.key) (hv : t.kv = s.kv) (hs : t.sk = s.sk) :
    CacheInv t ↔ CacheInv s := by simp only [CacheInv, hk, hv, hs]

theorem cipherSubkeys_congr {s t : State} (hk : t.key = s.key) (hl : t.lastcmd = s.lastcmd) :
    cipherSubkeys t = cipherSubkeys s := by simp only [cipherSubkeys, hk, hl]

/-- Two states that agree on what the invariant names meet it together. -/
theorem inv_congr {s t : State} (h : EngineInv s) (hkey : t.key = s.key) (hdin : t.din = s.din)
    (hlast : t.lastcmd = s.lastcmd) (hkv : t.kv = s.kv) (herr : t.err = s.err)
    (hecode : t.ecode = s.ecode) (hfsm : t.fsm = s.fsm) (hround : t.round = s.round)
    (hkscnt : t.kscnt = s.kscnt) (hc : t.c = s.c) (hd : t.d = s.d) (hl : t.l = s.l) (hr : t.r = s.r)
    (hsk : t.sk = s.sk) : EngineInv t := by
  obtain ⟨ranges, cache, latched, schedule, cipher⟩ := h
  constructor
  · simpa only [RangesInv, *] using ranges
  · simpa only [CacheInv, *] using cache
  · simpa only [LatchedInv, *] using latched
  · simpa only [ScheduleInv, inDerivation, halves, *] using schedule
  · simpa only [CipherInv, inDerivation, cipherLatched, cipherSubkeys, block, *] using cipher

/-- A state that is not busy meets the invariant when ranges, cache and latch are right. -/
theorem inv_of_not_busy {s : State} (hb : busy s = false) (hr : RangesInv s) (hc : CacheInv s)
    (hl : ∃ i, decodeWord s.lastcmd = .ok i) : EngineInv s := by
  obtain ⟨i, hi⟩ := hl
  rw [busy_eq_false] at hb
  refine ⟨hr, hc, ⟨i, hi, ?_⟩, ?_, ?_⟩
  · rcases hb with h | h <;> rw [h] <;> trivial
  · rcases hb with h | h <;> simp [ScheduleInv, inDerivation, h]
  · rcases hb with h | h <;> simp [CipherInv, inDerivation, h]

/-- The halves and the block are what their fields say, so equal fields give equal values. -/
theorem halves_congr {s t : State} (hc : t.c = s.c) (hd : t.d = s.d) : halves t = halves s := by
  simp only [halves, hc, hd]

theorem block_congr {s t : State} (hl : t.l = s.l) (hr : t.r = s.r) : block t = block s := by
  simp only [block, hl, hr]

end Sys2Proof.Machine
end

