-- ==== Sys2Proof/Laws/PerInstr.lean ====
section
/-! SUPPORT. A statement about every command as syntax, one lemma per constructor: the encoding of a command
is a legal word (R68, as the rule writes it, apart from the decoder) exactly when the command is well
formed. -/

namespace Sys2Proof.Laws.Legal

/-- R68: the encoder and the legality predicate agree on `i`. -/
def Statement (i : Instr) : Prop := legal (encode i) = i.wf

theorem nop : Statement .nop := by unfold Statement; decide
theorem ksd : Statement .ksd := by unfold Statement; decide
theorem enc : Statement .enc := by unfold Statement; decide
theorem dec : Statement .dec := by unfold Statement; decide
theorem srst : Statement .srst := by unfold Statement; decide
theorem ip : Statement .ip := by unfold Statement; decide
theorem fp : Statement .fp := by unfold Statement; decide
theorem split : Statement .split := by unfold Statement; decide
theorem comb : Statement .comb := by unfold Statement; decide
theorem exp : Statement .exp := by unfold Statement; decide
theorem xork : Statement .xork := by unfold Statement; decide
theorem sbox : Statement .sbox := by unfold Statement; decide
theorem permp : Statement .permp := by unfold Statement; decide
theorem swap : Statement .swap := by unfold Statement; decide
theorem ffn : Statement .ffn := by unfold Statement; decide
theorem rndk : Statement .rndk := by unfold Statement; decide
theorem rnds (rnd : BitVec 5) : Statement (.rnds rnd) := by unfold Statement; revert rnd; decide
theorem pc1 : Statement .pc1 := by unfold Statement; decide
theorem ksrot (rnd : BitVec 5) : Statement (.ksrot rnd) := by unfold Statement; revert rnd; decide
theorem pc2 : Statement .pc2 := by unfold Statement; decide
theorem skrd (rnd : BitVec 5) : Statement (.skrd rnd) := by unfold Statement; revert rnd; decide

end Sys2Proof.Laws.Legal
end

