-- ==== Sys2Proof/Laws/Step.lean ====
section
/-! SUPPORT. What a legal host write and a step of the whole machine can do, said once. -/

namespace Sys2Proof.Machine

/-- What a legal write can do (R52, R137). -/
inductive WriteCase (off : Offset) (v : Word) (s : State) : State → Prop
  | srst (ho : off = 0x08) (hv : v = srstWord) : WriteCase off v s (softReset s)
  | cmdBusy (ho : off = 0x08) (hv : v ≠ srstWord) (hb : busy s = true) :
      WriteCase off v s (raiseError .busyViolation s)
  | cmdIllegal (e : DecodeError) (ho : off = 0x08) (hv : v ≠ srstWord) (hb : busy s = false)
      (hd : decodeWord v = .error e) : WriteCase off v s (raiseError .illegalCommand s)
  | cmdIssued (i : Instr) (ho : off = 0x08) (hv : v ≠ srstWord) (hb : busy s = false)
      (hd : decodeWord v = .ok i) (hi : i ≠ .srst) : WriteCase off v s (issue i s)
  | status (ho : off = 0x10) : WriteCase off v s (writeStatus v s)
  | config (ho : off = 0x18) : WriteCase off v s (writeConfig v s)
  | operandBusy (ho : off = 0x20 ∨ off = 0x28 ∨ off = 0x38 ∨ off = 0x40) (hb : busy s = true) :
      WriteCase off v s (raiseError .busyViolation s)
  | key (ho : off = 0x20) (hb : busy s = false) : WriteCase off v s { s with key := v, kv := false }
  | din (ho : off = 0x28) (hb : busy s = false) : WriteCase off v s { s with din := v }
  | opa (ho : off = 0x38) (hb : busy s = false) : WriteCase off v s { s with opa := v }
  | opb (ho : off = 0x40) (hb : busy s = false) : WriteCase off v s { s with opb := v }
  | ignored (ho : off ≠ 0x08 ∧ off ≠ 0x10 ∧ off ≠ 0x18 ∧ off ≠ 0x20 ∧ off ≠ 0x28 ∧ off ≠ 0x38 ∧
      off ≠ 0x40) : WriteCase off v s s

/-- The word of SRST is the only one that decodes to it (R129). -/
theorem eq_srstWord_of_decode {v : Word} (h : decodeWord v = .ok .srst) : v = srstWord := by
  unfold decodeWord at h
  split at h
  next hz =>
    have hv := fields_append v
    unfold decodeFields formatC0 formatCR at h
    split at h <;> (try split at h) <;> try (simp at h)
    next _ hop hr =>
      have hop' : opcOf v = 0x04 := BitVec.eq_of_toNat_eq hop
      rw [← hv, hz, hr, hop']; rfl
  next => cases h

theorem commandWrite_case {off : Offset} {v : Word} {s t : State} (ho : off = 0x08)
    (h : commandWrite v s = .next t) : WriteCase off v s t := by
  unfold commandWrite at h
  split at h
  next hv => injection h with h; subst h; exact .srst ho hv
  next hv =>
    split at h
    next hb => injection h with h; subst h; exact .cmdBusy ho hv hb
    next hb =>
      have hb' : busy s = false := by simpa using hb
      split at h
      next e hd => injection h with h; subst h; exact .cmdIllegal e ho hv hb' hd
      next i hd =>
        have hi : i ≠ .srst := fun e => hv (eq_srstWord_of_decode (e ▸ hd))
        rw [exec_of_not_busy hi hb'] at h
        injection h with h; subst h; exact .cmdIssued i ho hv hb' hd hi

theorem operandWrite_case {s : State} (put : State → State) :
    (busy s = true ∧ operandWrite put s = raiseError .busyViolation s) ∨
    (busy s = false ∧ operandWrite put s = put s) := by
  unfold operandWrite; cases h : busy s <;> simp

theorem writeReg_case {off : Offset} {v : Word} {s t : State} (h : writeReg off v s = .next t) :
    WriteCase off v s t := by
  unfold writeReg at h
  have at_ : ∀ n : Nat, n < 256 → off.toNat = n → off = BitVec.ofNat 8 n := fun n hn hf =>
    BitVec.eq_of_toNat_eq (by simp [hf, Nat.mod_eq_of_lt hn])
  split at h
  next hf => exact commandWrite_case (at_ _ (by decide) hf) h
  next hf => injection h with h; subst h; exact .status (at_ _ (by decide) hf)
  next hf => injection h with h; subst h; exact .config (at_ _ (by decide) hf)
  next hf =>
    injection h with h; subst h
    obtain ⟨hb, he⟩ | ⟨hb, he⟩ := operandWrite_case (s := s) fun t => { t with key := v, kv := false }
    · rw [he]; exact .operandBusy (.inl (at_ _ (by decide) hf)) hb
    · rw [he]; exact .key (at_ _ (by decide) hf) hb
  next hf =>
    injection h with h; subst h
    obtain ⟨hb, he⟩ | ⟨hb, he⟩ := operandWrite_case (s := s) fun t => { t with din := v }
    · rw [he]; exact .operandBusy (.inr (.inl (at_ _ (by decide) hf))) hb
    · rw [he]; exact .din (at_ _ (by decide) hf) hb
  next hf =>
    injection h with h; subst h
    obtain ⟨hb, he⟩ | ⟨hb, he⟩ := operandWrite_case (s := s) fun t => { t with opa := v }
    · rw [he]; exact .operandBusy (.inr (.inr (.inl (at_ _ (by decide) hf)))) hb
    · rw [he]; exact .opa (at_ _ (by decide) hf) hb
  next hf =>
    injection h with h; subst h
    obtain ⟨hb, he⟩ | ⟨hb, he⟩ := operandWrite_case (s := s) fun t => { t with opb := v }
    · rw [he]; exact .operandBusy (.inr (.inr (.inr (at_ _ (by decide) hf)))) hb
    · rw [he]; exact .opb (at_ _ (by decide) hf) hb
  next h1 h2 h3 h4 h5 h6 h7 =>
    injection h with h; subst h
    refine .ignored ⟨?_, ?_, ?_, ?_, ?_, ?_, ?_⟩ <;> (intro e; subst e)
    exacts [h1 rfl, h2 rfl, h3 rfl, h4 rfl, h5 rfl, h6 rfl, h7 rfl]

/-- What one step of the machine can do. -/
inductive StepCase (s : State) : State → Prop
  /-- The engine moves before any input is taken. -/
  | engine (t : State) (hi : s.inputs = [] ∨ ((∃ rest, s.inputs = .wait :: rest) ∧ busy s = true))
      (h : EngineCase s t) : StepCase s t
  /-- The engine moves on its turn in the list. -/
  | turn (rest : List Input) (t : State) (hi : s.inputs = .engine :: rest)
      (h : EngineCase { s with inputs := rest } t) : StepCase s t
  | read (off : Offset) (rest : List Input) (hi : s.inputs = .read off 8 :: rest)
      (hl : legalAccess off 8 = true) :
      StepCase s { s with inputs := rest, readData := some (readReg off s) }
  | write (off : Offset) (v : Word) (rest : List Input) (t : State)
      (hi : s.inputs = .write off 8 v :: rest) (hl : legalAccess off 8 = true)
      (h : WriteCase off v { s with inputs := rest } t) : StepCase s t
  | waited (rest : List Input) (hi : s.inputs = .wait :: rest) (hb : busy s = false) :
      StepCase s { s with inputs := rest, readData := some (statusWord s) }
  | reset (rest : List Input) (hi : s.inputs = .reset :: rest) :
      StepCase s (resetEngine { s with inputs := rest })

theorem size_of_legalAccess {off : Offset} {size : Nat} (h : legalAccess off size = true) : size = 8 := by
  simp [legalAccess] at h; exact h.2

theorem step_case {s t : State} (h : step s = .next t) : StepCase s t := by
  unfold step at h
  split at h
  next hi => exact .engine t (.inl hi) (engineStep_case h)
  next off size rest hi =>
    unfold hostRead at h; split at h
    next hl =>
      obtain rfl := size_of_legalAccess hl
      injection h with h; subst h; exact .read off rest hi hl
    next => cases h
  next off size v rest hi =>
    unfold hostWrite at h; split at h
    next hl =>
      obtain rfl := size_of_legalAccess hl
      exact .write off v rest t hi hl (writeReg_case h)
    next => cases h
  next rest hi =>
    split at h
    next hb => exact .engine t (.inr ⟨⟨rest, hi⟩, hb⟩) (engineStep_case h)
    next hb => injection h with h; subst h; exact .waited rest hi (by simpa using hb)
  next rest hi => exact .turn rest t hi (engineStep_case h)
  next rest hi => injection h with h; subst h; exact .reset rest hi

theorem runCase_inputs {k f} {s t : State} (hf : ∀ u, f s ≠ .next u) (h : RunCase k f s t) :
    t.inputs = s.inputs := by
  cases h <;> first | rfl | exact absurd (by assumption) (hf _)

theorem execCase_inputs {i : Instr} {s t : State} (h : ExecCase i s t) : t.inputs = s.inputs := by
  cases h <;> simp

theorem engineCase_inputs {s t : State} (h : EngineCase s t) : t.inputs = s.inputs := by
  cases h with
  | quiet => rfl
  | control i t hb hl hi he h => exact runCase_inputs (by simp) h
  | exec i t hl hi hc hd he h => exact execCase_inputs h
  | unlatched t hb hl h => exact runCase_inputs (by simp) h

theorem writeCase_inputs {off : Offset} {v : Word} {s t : State} (h : WriteCase off v s t) :
    t.inputs = s.inputs := by
  cases h with
  | cmdIssued i => unfold issue; split <;> simp
  | _ => first | rfl | simp

/-- The port never drops or reorders what the host still has to do: a step leaves the list of inputs as it
is or takes its head (R56). -/
theorem step_inputs {s t : State} (h : step s = .next t) :
    t.inputs = s.inputs ∨ ∃ inp, s.inputs = inp :: t.inputs := by
  cases step_case h with
  | engine _ hi h => exact .inl (engineCase_inputs h)
  | turn rest _ hi h => exact .inr ⟨_, by rw [hi, engineCase_inputs h]⟩
  | read off rest hi hl => exact .inr ⟨_, hi⟩
  | write off v rest _ hi hl h => exact .inr ⟨_, by rw [hi, writeCase_inputs h]⟩
  | waited rest hi hb => exact .inr ⟨_, hi⟩
  | reset rest hi => exact .inr ⟨_, hi⟩

end Sys2Proof.Machine
end

