-- ==== Sys2Proof/Machine/HostAsm.lean ====
section
/-! DEFINITION. The host assembly syntax (spec/30_encoding.md R70): register names, statements, and the
port inputs each statement stands for. -/

namespace Sys2Proof.Machine

/-- The registers of the window (R46). -/
inductive Reg where
  | id | cmd | status | config | key | din | dout | opa | opb | resa | resb | kscd
  deriving DecidableEq, Repr

/-- The byte offset of a register (R46). -/
def regOffset : Reg → Offset
  | .id => 0x00
  | .cmd => 0x08
  | .status => 0x10
  | .config => 0x18
  | .key => 0x20
  | .din => 0x28
  | .dout => 0x30
  | .opa => 0x38
  | .opb => 0x40
  | .resa => 0x48
  | .resb => 0x50
  | .kscd => 0x58

/-- A statement of a host program (R70). -/
inductive Stmt where
  /-- `WR <REG>, <value>`. -/
  | wr (reg : Reg) (value : Word)
  /-- `RD <REG>`. -/
  | rd (reg : Reg)
  /-- `CMD <mnemonic> [r]`. -/
  | cmd (i : Instr)
  /-- `WAIT`. -/
  | wait
  /-- `CLRST`. -/
  | clrst
  deriving DecidableEq, Repr

/-- What a statement does at the port (R70). -/
def stmtInput : Stmt → Input
  | .wr reg value => .write (regOffset reg) 8 value
  | .rd reg => .read (regOffset reg) 8
  | .cmd i => .write (regOffset .cmd) 8 (encode i)
  | .wait => .wait
  | .clrst => .write (regOffset .status) 8 0x000000000000000A

/-- The mnemonic of a command (R67). -/
def mnemonic : Instr → String
  | .nop => "NOP"
  | .ksd => "KSD"
  | .enc => "ENC"
  | .dec => "DEC"
  | .srst => "SRST"
  | .ip => "IP"
  | .fp => "FP"
  | .split => "SPLIT"
  | .comb => "COMB"
  | .exp => "EXP"
  | .xork => "XORK"
  | .sbox => "SBOX"
  | .permp => "PERMP"
  | .swap => "SWAP"
  | .ffn => "FFN"
  | .rndk => "RNDK"
  | .rnds _ => "RNDS"
  | .pc1 => "PC1"
  | .ksrot _ => "KSROT"
  | .pc2 => "PC2"
  | .skrd _ => "SKRD"

/-- A command as R70 writes it: the mnemonic, and for format CR the round index in decimal. -/
def asmText (i : Instr) : String :=
  match i with
  | .rnds rnd | .ksrot rnd | .skrd rnd => mnemonic i ++ " " ++ toString rnd.toNat
  | .nop | .ksd | .enc | .dec | .srst
  | .ip | .fp | .split | .comb | .exp | .xork | .sbox | .permp | .swap | .ffn | .rndk
  | .pc1 | .pc2 => mnemonic i

end Sys2Proof.Machine
end

