-- ==== Sys2Proof/Tests/Slice0.lean ====
section
/-! SUPPORT. Tests, each with its expected value from the spec (the source's worked examples V1 to V5 and
the derived vectors of spec/95_test_vectors.md, or the encoding tables of 30_encoding.md), and for every
obligation with hypotheses a witness that meets them. -/

namespace Sys2Proof.Tests

open Sys2Proof.Machine

/-! ### Decoding: words written out from R64 and R67 (RSV zero, then 5 bits RND, then 8 bits OPC) -/

theorem test_decode_nop : decodeTableWord 64 0b00000_00000000 = some .nop := by decide
theorem test_decode_ksd : decodeTableWord 64 0b00000_00000001 = some .ksd := by decide
theorem test_decode_enc : decodeTableWord 64 0b00000_00000010 = some .enc := by decide
theorem test_decode_dec : decodeTableWord 64 0b00000_00000011 = some .dec := by decide
theorem test_decode_srst : decodeTableWord 64 0b00000_00000100 = some .srst := by decide
theorem test_decode_ip : decodeTableWord 64 0b00000_00010000 = some .ip := by decide
theorem test_decode_fp : decodeTableWord 64 0b00000_00010001 = some .fp := by decide
theorem test_decode_split : decodeTableWord 64 0b00000_00010010 = some .split := by decide
theorem test_decode_comb : decodeTableWord 64 0b00000_00010011 = some .comb := by decide
theorem test_decode_exp : decodeTableWord 64 0b00000_00010100 = some .exp := by decide
theorem test_decode_xork : decodeTableWord 64 0b00000_00010101 = some .xork := by decide
theorem test_decode_sbox : decodeTableWord 64 0b00000_00010110 = some .sbox := by decide
theorem test_decode_permp : decodeTableWord 64 0b00000_00010111 = some .permp := by decide
theorem test_decode_swap : decodeTableWord 64 0b00000_00011000 = some .swap := by decide
theorem test_decode_ffn : decodeTableWord 64 0b00000_00011001 = some .ffn := by decide
theorem test_decode_rndk : decodeTableWord 64 0b00000_00011010 = some .rndk := by decide
theorem test_decode_rnds : decodeTableWord 64 0b00101_00011011 = some (.rnds 5) := by decide
theorem test_decode_pc1 : decodeTableWord 64 0b00000_00100000 = some .pc1 := by decide
theorem test_decode_ksrot : decodeTableWord 64 0b10000_00100001 = some (.ksrot 16) := by decide
theorem test_decode_pc2 : decodeTableWord 64 0b00000_00100010 = some .pc2 := by decide
theorem test_decode_skrd : decodeTableWord 64 0b00001_00100011 = some (.skrd 1) := by decide

/-- R70: `KSROT 16` is 0x1021 and `SKRD 1` is 0x123. -/
theorem test_encode_examples :
    encode (.ksrot 16) = 0x0000000000001021 ∧ encode (.skrd 1) = 0x0000000000000123 := by decide

/-- 95_test_vectors.md D-ENC: the illegal words, each refused for its own reason. -/
theorem test_illegal_words :
    decodeWord 0x000000000000001B = .error .roundOutOfRange ∧
    decodeWord 0x000000000000111B = .error .roundOutOfRange ∧
    decodeWord 0x0000000000000102 = .error .roundFieldNotZero ∧
    decodeWord 0x0000000000000104 = .error .roundFieldNotZero ∧
    decodeWord 0x0000000000000005 = .error .undefinedOpcode ∧
    decodeWord 0x000000000000001C = .error .undefinedOpcode ∧
    decodeWord 0x0000000000000024 = .error .undefinedOpcode ∧
    decodeWord 0x00000000000000FF = .error .undefinedOpcode ∧
    decodeWord 0x0000000000002023 = .error .reservedBits ∧
    decodeWord 0x8000000000000002 = .error .reservedBits := by decide

/-! ### WellFormed: an ill-formed command for each check (R68), refused -/

theorem test_wf_refuses_rnds_0 : Instr.wf (.rnds 0) = false := by decide
theorem test_wf_refuses_rnds_17 : Instr.wf (.rnds 17) = false := by decide
theorem test_wf_refuses_ksrot_0 : Instr.wf (.ksrot 0) = false := by decide
theorem test_wf_refuses_ksrot_31 : Instr.wf (.ksrot 31) = false := by decide
theorem test_wf_refuses_skrd_0 : Instr.wf (.skrd 0) = false := by decide
theorem test_wf_refuses_skrd_17 : Instr.wf (.skrd 17) = false := by decide

/-! ### One step of a command -/

/-- The key and the block of V1. -/
def keyV1 : Word := 0xAABB09182736CCDD
def blockV1 : Word := 0x123456ABCD132536

/-- Command `i` in EXEC with the operands `a` and `b`, KV = 0. -/
def atExec (i : Instr) (a b : Word) : State :=
  { State.reset with lastcmd := encode i, fsm := .exec, opa := a, opb := b }

/-- As `atExec`, with the cache filled for `keyV1`. -/
def atExecCached (i : Instr) (a : Word) : State :=
  { atExec i a 0 with key := keyV1, kv := true, sk := keySchedule keyV1 }

/-- RESA, ERR and ECODE of a next state. -/
def outcome (r : Result) : Option (Word × Bool × BitVec 4) :=
  match r with
  | .next t => some (t.resa, t.err, t.ecode)
  | .fault _ | .refused _ => none

/-- DOUT, STATUS and `L ‖ R` of a next state. -/
def cipherOutcome (r : Result) : Option (Word × Word × Word) :=
  match r with
  | .next t => some (t.dout, statusWord t, block t)
  | .fault _ | .refused _ => none

/-- STATUS and KSCD of a next state. -/
def statusOutcome (r : Result) : Option (Word × Word) :=
  match r with
  | .next t => some (statusWord t, kscdWord t)
  | .fault _ | .refused _ => none

/-- The ok and the refused outcome of a width check. -/
def ok (v : Word) : Option (Word × Bool × BitVec 4) := some (v, false, 0)
def tooWide : Option (Word × Bool × BitVec 4) := some (0, true, 1)

/-- D-CTL: from reset, `CMD NOP; WAIT` leaves STATUS = 0x50002. -/
theorem test_nop : statusOutcome (exec .nop (atExec .nop 0 0)) = some (0x0000000000050002, 0) := by
  decide +kernel

/-- R107, D-KS row 0: the first step of KSD loads C₀ ‖ D₀. -/
theorem test_ksd_starts :
    statusOutcome (exec .ksd { atExec .ksd 0 0 with key := keyV1 }) =
      some (0x0000000000060001, 0x00C3C033A33F0CFA) := by decide +kernel

/-- D-KS row 1: the first derivation step of the V1 key. -/
theorem test_ksd_first_subkey :
    (match exec .ksd { atExec .ksd 0 0 with fsm := .ksPc1, c := 0xC3C033A, d := 0x33F0CFA } with
      | .next t => some (halves t, t.sk[0], t.kscnt)
      | .fault _ | .refused _ => none) = some (0x878067567E19F4, 0x194CD072DE8C, 1) := by decide +kernel

/-- D-CIPH, engine step 1 of V1. -/
theorem test_enc_initialized :
    cipherOutcome (exec .enc { State.reset with lastcmd := 2, din := blockV1, fsm := .initialized }) =
      some (0, 0x0000000000020001, 0x14A7D67818CA18AD) := by decide +kernel

/-- D-CIPH, engine step 37 of V1. -/
theorem test_enc_final :
    cipherOutcome (exec .enc { State.reset with
      lastcmd := 2, kv := true, fsm := .swapped, round := 16, kscnt := 16, l := 0x19BA9212, r := 0xCF26B472 }) =
      some (0xC0B7A8D05F3A829C, 0x0000001010050006, 0x19BA9212CF26B472) := by decide +kernel

/-- D-CIPH: round 1 of DEC uses subkey 16. -/
theorem test_dec_first_round :
    cipherOutcome (exec .dec { State.reset with
      lastcmd := 3, kv := true, fsm := .permuted, l := 0x19BA9212, r := 0xCF26B472,
      sk := (Vector.replicate 16 0).set 15 0x181C5D75C66D }) =
      some (0, 0x0000000001030005, 0xCF26B472BD2DD2AB) := by decide +kernel

/-- D-CIPH: the swap of DEC. -/
theorem test_dec_swap :
    cipherOutcome (exec .dec { State.reset with
      lastcmd := 3, kv := true, fsm := .round, round := 16, l := 0x18CA18AD, r := 0x14A7D678 }) =
      some (0, 0x0000000010040005, 0x14A7D67818CA18AD) := by decide +kernel

/-- Program 7: SRST during ENC keeps CONFIG alone. -/
theorem test_srst :
    exec .srst { State.reset with lastcmd := 2, key := keyV1, die := true, fsm := .ksRot, kscnt := 3 } =
      .next { State.reset with die := true } := rfl

theorem test_ip : outcome (exec .ip (atExec .ip blockV1 0)) = ok 0x14A7D67818CA18AD := by decide +kernel
theorem test_ip_single_bit : outcome (exec .ip (atExec .ip 0x8000000000000000 0)) = ok 0x0000000001000000 := by
  decide +kernel
theorem test_fp : outcome (exec .fp (atExec .fp 0x19BA9212CF26B472 0)) = ok 0xC0B7A8D05F3A829C := by
  decide +kernel
theorem test_fp_single_bit : outcome (exec .fp (atExec .fp 0x8000000000000000 0)) = ok 0x0000000000000040 := by
  decide +kernel

theorem test_split :
    (match exec .split (atExec .split blockV1 0) with
      | .next t => some (t.resa, t.resb)
      | .fault _ | .refused _ => none) = some (0x00000000123456AB, 0x00000000CD132536) := by decide +kernel
theorem test_comb : outcome (exec .comb (atExec .comb 0x18CA18AD 0x5A78E394)) = ok 0x18CA18AD5A78E394 := by
  decide +kernel
theorem test_comb_too_wide : outcome (exec .comb (atExec .comb 0 0x8000000000000000)) = tooWide := by
  decide +kernel
theorem test_swap : outcome (exec .swap (atExec .swap 0xCF26B47219BA9212 0)) = ok 0x19BA9212CF26B472 := by
  decide +kernel

/-- V2, the source's golden vector. -/
theorem test_exp : outcome (exec .exp (atExec .exp 0x00000000F0F0F0F0 0)) = ok 0x00007A17A17A17A1 := by
  decide +kernel
theorem test_exp_too_wide : outcome (exec .exp (atExec .exp 0x0000000100000000 0)) = tooWide := by
  decide +kernel
theorem test_xork :
    outcome (exec .xork (atExec .xork 0x8F16540F155A 0x194CD072DE8C)) = ok 0x0000965A847DCBD6 := by
  decide +kernel
theorem test_xork_too_wide : outcome (exec .xork (atExec .xork 0x0001000000000000 0)) = tooWide := by
  decide +kernel
theorem test_sbox : outcome (exec .sbox (atExec .sbox 0x965A847DCBD6 0)) = ok 0x8AFE657E := by decide +kernel
theorem test_sbox_group_8 : outcome (exec .sbox (atExec .sbox 0x1E 0)) = ok 0xEFA72C47 := by decide +kernel
theorem test_permp : outcome (exec .permp (atExec .permp 0x8AFE657E 0)) = ok 0x4EDF35EC := by decide +kernel
theorem test_permp_too_wide : outcome (exec .permp (atExec .permp 0x0000000100000000 0)) = tooWide := by
  decide +kernel
theorem test_ffn : outcome (exec .ffn (atExec .ffn 0xF0F0F0F0 0x7F37EFFB7F67)) = ok 0x46454579 := by
  decide +kernel
theorem test_ffn_too_wide : outcome (exec .ffn (atExec .ffn 0 0x0001000000000000)) = tooWide := by
  decide +kernel
theorem test_rndk :
    outcome (exec .rndk (atExec .rndk 0x14A7D67818CA18AD 0x194CD072DE8C)) = ok 0x18CA18AD5A78E394 := by
  decide +kernel
theorem test_rndk_zero_subkey :
    outcome (exec .rndk (atExec .rndk 0x14A7D67818CA18AD 0)) = ok 0x18CA18AD671E37B8 := by decide +kernel
theorem test_rnds :
    outcome (exec (.rnds 1) (atExecCached (.rnds 1) 0x14A7D67818CA18AD)) = ok 0x18CA18AD5A78E394 := by
  decide +kernel
theorem test_rnds_derives_first :
    statusOutcome (exec (.rnds 1) { atExec (.rnds 1) 0 0 with key := keyV1 }) =
      some (0x0000000000060001, 0x00C3C033A33F0CFA) := by decide +kernel

theorem test_pc1 : outcome (exec .pc1 (atExec .pc1 keyV1 0)) = ok 0x00C3C033A33F0CFA := by decide +kernel
theorem test_pc1_one_bit : outcome (exec .pc1 (atExec .pc1 2 0)) = ok 0x0000000008000000 := by decide +kernel
theorem test_ksrot :
    outcome (exec (.ksrot 1) (atExec (.ksrot 1) 0x0080000008000000 0)) = ok 0x0000000010000001 := by
  decide +kernel
theorem test_ksrot_two_places :
    outcome (exec (.ksrot 3) (atExec (.ksrot 3) 0x000F00CEBCFC33E8 0)) = ok 0x003C033AC3F0CFA3 := by
  decide +kernel
theorem test_pc2 : outcome (exec .pc2 (atExec .pc2 0x00878067567E19F4 0)) = ok 0x0000194CD072DE8C := by
  decide +kernel
theorem test_pc2_too_wide : outcome (exec .pc2 (atExec .pc2 0x0100000000000000 0)) = tooWide := by
  decide +kernel
theorem test_skrd : outcome (exec (.skrd 16) (atExecCached (.skrd 16) 0)) = ok 0x0000181C5D75C66D := by
  decide +kernel

/-! ### The port, the interrupt and the host's conventions -/

/-- Program 5: the first error stays, with IRQ up. -/
theorem test_first_error_stays :
    statusOutcome (step { State.reset with
      done := true, err := true, ecode := 1, fsm := .finalized, inputs := [.write 0x08 8 5] }) =
      some (0x000000000005010A, 0) := by decide +kernel

/-- D-ENC: a word that is illegal and busy is a BusyViolation. -/
theorem test_busy_before_illegal :
    statusOutcome (step { atExec .nop 0 0 with inputs := [.write 0x08 8 5] }) =
      some (0x0000000000080309, 0) := by decide +kernel

/-- R35 code 1, R26: STATUS right after ENC is accepted from reset. -/
theorem test_status_initialized :
    statusOutcome (step { State.reset with inputs := [.write 0x08 8 2] }) = some (0x0000000000010001, 0) := by
  decide +kernel

/-- D-CIPH step 3, D-KS row 1: STATUS (R35 code 7) and KSCD after the first derivation step of V1's ENC. -/
theorem test_status_ks_rot :
    statusOutcome (exec .enc { State.reset with
      lastcmd := 2, key := keyV1, fsm := .ksPc1, c := 0xC3C033A, d := 0x33F0CFA }) =
      some (0x0000000100070001, 0x00878067567E19F4) := by decide +kernel

/-- R124, D-CTL: a completed engine that nothing is asked of stays in FINALIZED with DONE and the result. -/
theorem test_finalized_stays :
    step { State.reset with done := true, fsm := .finalized, resa := 7 } =
      .next { State.reset with done := true, fsm := .finalized, resa := 7 } := rfl

/-- D-CTL: `WR STATUS, 0xFFFFFFFFFFFFFFF5` changes nothing. -/
theorem test_status_write_ignores_other_bits :
    writeStatus 0xFFFFFFFFFFFFFFF5 { State.reset with done := true, err := true, ecode := 2 } =
      { State.reset with done := true, err := true, ecode := 2 } := by decide +kernel

/-- D-CTL: DONE with DIE gives IRQ. -/
theorem test_irq : irq { State.reset with done := true, die := true } = true := rfl

/-- R70: `CLRST` is the write of 0xA to STATUS. -/
theorem test_clrst : stmtInput .clrst = .write 0x10 8 0xA := rfl

/-- V3: text examples. -/
theorem test_parse_too_long : parse ['A', 'B', 'C', 'D', 'E', 'F', 'G', 'H', 'S'] = .error .inputLength := rfl
theorem test_parse_not_ascii :
    parse ['A', 'B', 'C', 'D', 'E', 'F', 'G', Char.ofNat 0xC9] = .error .inputEncoding := rfl
theorem test_hex :
    toHexChars 0xAB = ['0', 'x', '0', '0', '0', '0', '0', '0', '0', '0', '0', '0', '0', '0', '0', '0', 'A', 'B'] := by
  decide +kernel

/-- The row's interface: the word of SWAP runs as the first command after reset, and is accepted. -/
theorem test_fetch_word : step (State.reset.withFetchWord 64 0x18) = exec .swap State.reset := by rfl

/-! ### Witnesses: for every obligation with hypotheses, states and operands that meet them -/

theorem witness_OpcodeMapWordsDecode :
    (1 ≤ (1 : BitVec 5).toNat ∧ (1 : BitVec 5).toNat ≤ 16) ∧
    (1 ≤ (16 : BitVec 5).toNat ∧ (16 : BitVec 5).toNat ≤ 16) := by decide

theorem witness_DecodeOfEncodeIsTheCommand :
    Instr.wf .srst = true ∧ Instr.wf (.rnds 1) = true ∧ Instr.wf (.skrd 16) = true := by decide

theorem witness_EncodeOfDecodeIsTheWord : decodeWord 0x000000000000101B = .ok (.rnds 16) := by rfl

/-- ENC has just been accepted, with `keyV1` and `blockV1`, and `inputs` are still to come. -/
def accepted (inputs : List Input) : State :=
  { State.reset with
    key := keyV1, din := blockV1, lastcmd := encode .enc, fsm := .initialized, inputs := inputs }

/-- Nothing runs, KEY and DIN are written, the cache is filled when `kv` says so, and `inputs` are to come. -/
def quiet (kv : Bool) (inputs : List Input) : State :=
  { State.reset with
    key := keyV1, din := blockV1, kv := kv, inputs := inputs
    sk := if kv then keySchedule keyV1 else Vector.replicate 16 0 }

/-- The subkeys of `keyV1` in DEC's order (R118). -/
def kselReverse : RoundIx → Subkey := fun i => subkeyOf keyV1 i.rev

/-- The swapped block of V1 as the rules compute it, for either order of the subkeys. -/
def swappedBlock (ksel : RoundIx → Subkey) : Word := swapHalves (roundsF ksel (ipF blockV1) 16)

/-- The SWAPPED state of `i` (ENC or DEC) on V1's key and block, the subkeys in the order `ksel`. -/
def atSwapped (i : Instr) (ksel : RoundIx → Subkey) (inputs : List Input) : State :=
  { quiet true inputs with
    lastcmd := encode i, fsm := .swapped, round := 16
    l := hi32 (swappedBlock ksel), r := lo32 (swappedBlock ksel) }

theorem witness_StepRunsTheDecodedCommand :
    ((quiet false [.write 0x08 8 0x121]).inputs = .write 0x08 8 0x121 :: [] ∧
      busy (quiet false [.write 0x08 8 0x121]) = false ∧ decodeWord 0x121 = .ok (.ksrot 1)) ∧
    (busy (accepted []) = true ∧ decodeWord (accepted []).lastcmd = .ok .enc ∧ Instr.enc ≠ .srst ∧
      (accepted []).inputs = [] ∧ (accepted [.wait]).inputs = .wait :: [] ∧
      (accepted [.engine]).inputs = .engine :: []) ∧
    (busy { quiet true [] with fsm := .finalized, done := true } = false ∧
      (quiet true []).inputs = [] ∧ busy (quiet true [.engine]) = false ∧
      (quiet true [.engine]).inputs = .engine :: [] ∧ busy (quiet true [.wait]) = false ∧
      (quiet true [.wait]).inputs = .wait :: []) ∧
    decodeTableWord 64 0x18 = some .swap := by
  exact ⟨⟨rfl, rfl, rfl⟩, ⟨rfl, rfl, by decide, rfl, rfl, rfl⟩, ⟨rfl, rfl, rfl, rfl, rfl, rfl⟩, by decide⟩

theorem witness_AcceptanceLatchesAndChangesNothingElse :
    (Instr.wf .dec = true ∧ Instr.dec ≠ .srst ∧ busy State.reset = false) ∧
    (Instr.wf (.skrd 16) = true ∧ Instr.skrd 16 ≠ .srst ∧ busy (quiet true []) = false) := by
  exact ⟨⟨rfl, by decide, rfl⟩, ⟨by decide, by decide, rfl⟩⟩

/-- One state for each of the four outcomes of `command_write`. -/
theorem witness_CommandWriteIsResolvedInOrder :
    (accepted [.write 0x08 8 4]).inputs = .write 0x08 8 4 :: [] ∧
    ((accepted [.write 0x08 8 0x104]).inputs = .write 0x08 8 0x104 :: [] ∧
      busy (accepted [.write 0x08 8 0x104]) = true) ∧
    ((quiet false [.write 0x08 8 0x104]).inputs = .write 0x08 8 0x104 :: [] ∧ legal 0x104 = false) ∧
    ((quiet false [.write 0x08 8 2]).inputs = .write 0x08 8 2 :: [] ∧ legal 2 = true) := by
  exact ⟨rfl, ⟨rfl, rfl⟩, ⟨rfl, by decide⟩, ⟨rfl, by decide⟩⟩

theorem witness_FirstErrorStaysUntilCleared :
    (State.reset.err = false ∧ (endedInWidthViolation State.reset).err = true) ∧
    (∃ t, step { State.reset with err := true, ecode := 2, inputs := [.write 0x08 8 5] } = .next t ∧
      t.err = true) ∧
    (∃ t, step { State.reset with err := true, ecode := 2, inputs := [.write 0x10 8 8] } = .next t ∧
      t.err = false) ∧
    ({ State.reset with inputs := [.write 0x10 8 8] } : State).inputs = .write 0x10 8 8 :: [] ∧
    (8 : Word).getLsbD 3 = true ∧
    (Instr.wf .enc = true ∧ Instr.enc ≠ .srst ∧ busy { State.reset with err := true, ecode := 2 } = false ∧
      ({ State.reset with err := true, ecode := 2 } : State).err = true) := by
  exact ⟨⟨rfl, rfl⟩, ⟨_, rfl, rfl⟩, ⟨_, rfl, rfl⟩, rfl, by decide, ⟨rfl, by decide, rfl, rfl⟩⟩

/-- A state of each of the nine FSM values. -/
theorem witness_StatusConfigAndKscdFields :
    ∀ f ∈ [Fsm.idle, .initialized, .permuted, .round, .swapped, .finalized, .ksPc1, .ksRot, .exec],
      ({ quiet true [] with fsm := f } : State).fsm = f := by
  intro f _; rfl

theorem witness_LegalReadReturnsTheRegister :
    ((quiet false [.read 0x00 8]).inputs = .read 0x00 8 :: [] ∧ (0x00 : Offset).toNat % 8 = 0) ∧
    ((quiet false [.read 0x58 8]).inputs = .read 0x58 8 :: [] ∧ (0x58 : Offset).toNat % 8 = 0) ∧
    ((quiet false [.read 0xF8 8]).inputs = .read 0xF8 8 :: [] ∧ (0xF8 : Offset).toNat % 8 = 0) := by
  exact ⟨⟨rfl, by decide⟩, ⟨rfl, by decide⟩, ⟨rfl, by decide⟩⟩

/-- Every clause: the offsets at the ends of the ignored range are 0x60 and 0xF8. -/
theorem witness_LegalWriteEffects :
    (∀ off ∈ ([0x00, 0x08, 0x10, 0x18, 0x20, 0x28, 0x30, 0x38, 0x40, 0x48, 0x50, 0x58, 0x60, 0xF8] :
        List Offset), off.toNat % 8 = 0) ∧
    (quiet false [.write 0x20 8 1]).inputs = .write 0x20 8 1 :: [] ∧ busy (quiet false []) = false ∧
    (accepted [.write 0x40 8 1]).inputs = .write 0x40 8 1 :: [] ∧ busy (accepted []) = true ∧
    0x60 ≤ (0x60 : Offset).toNat ∧ 0x60 ≤ (0xF8 : Offset).toNat := by
  exact ⟨by decide, rfl, rfl, rfl, rfl, by decide, by decide⟩

theorem witness_MisalignedOrNarrowAccessIsABusError :
    ((0x0C : Offset).toNat % 8 ≠ 0 ∧ (quiet false [.read 0x0C 8]).inputs = .read 0x0C 8 :: []) ∧
    ((4 : Nat) ≠ 8 ∧ (quiet false [.write 0x10 4 2]).inputs = .write 0x10 4 2 :: []) ∧
    (0xFF : Offset).toNat % 8 ≠ 0 := by
  exact ⟨⟨by decide, rfl⟩, ⟨by decide, rfl⟩, by decide⟩

theorem witness_IrqFollowsDoneAndErr :
    ((quiet true [.write 0x10 8 0xA]).inputs = .write 0x10 8 0xA :: [] ∧
      (0xA : Word).getLsbD 1 = true ∧ (0xA : Word).getLsbD 3 = true) ∧
    ((quiet true [.write 0x18 8 4]).inputs = .write 0x18 8 4 :: [] ∧
      (4 : Word).getLsbD 0 = false ∧ (4 : Word).getLsbD 1 = false) ∧
    (Instr.wf .ksd = true ∧ busy (quiet true []) = false ∧ (quiet true []).err = false) ∧
    (accepted [.reset]).inputs = .reset :: [] := by
  exact ⟨⟨rfl, by decide, by decide⟩, ⟨rfl, by decide, by decide⟩, ⟨rfl, rfl, rfl⟩, rfl⟩

theorem witness_ResetInputGivesTheResetState :
    (accepted [.reset]).inputs = .reset :: [] ∧
    (accepted [.reset, .engine, .wait]).inputs = .reset :: .engine :: [.wait] := ⟨rfl, rfl⟩

theorem witness_SoftResetKeepsOnlyConfig :
    (accepted [.write 0x08 8 4]).inputs = .write 0x08 8 4 :: [] ∧
    (quiet true [.write 0x08 8 4]).inputs = .write 0x08 8 4 :: [] := ⟨rfl, rfl⟩

/-- Nop, Ip, Fp, Split, Swap and Pc1 ask for EXEC; Ksd for EXEC with either value of KV; Nop also for a
quiet and for a busy engine. -/
theorem witness_NopKsdIpFpSplitSwapPc1Commands :
    (atExec .nop 0 0).fsm = .exec ∧
    ((atExec .ksd 0 0).fsm = .exec ∧ (atExec .ksd 0 0).kv = false) ∧
    ((atExecCached .ksd 0).fsm = .exec ∧ (atExecCached .ksd 0).kv = true) ∧
    busy State.reset = false ∧
    ((accepted [.write 0x08 8 0]).inputs = .write 0x08 8 0 :: [] ∧ busy (accepted [.write 0x08 8 0]) = true) := by
  exact ⟨rfl, ⟨rfl, rfl⟩, ⟨rfl, rfl⟩, rfl, rfl, rfl⟩

/-- The last clause of SPLIT's statement: another command that answers a next state. -/
theorem witness_SplitCommandAloneWritesResb :
    Instr.nop ≠ .split ∧ Instr.nop ≠ .srst ∧ ∃ t, exec .nop (atExec .nop 0 0) = .next t :=
  ⟨by decide, by decide, _, rfl⟩

/-- Comb, Exp, Permp: operands at the edge of 32 bits, inside and outside. -/
theorem witness_CombExpPermpCommands :
    (0x00000000FFFFFFFF : Word).extractLsb' 32 32 = 0 ∧ (0x0000000100000000 : Word).extractLsb' 32 32 ≠ 0 ∧
    (0x8000000000000000 : Word).extractLsb' 32 32 ≠ 0 ∧ (atExec .comb 0xFFFFFFFF 0).fsm = .exec := by decide

/-- Xork, Sbox, Ffn, Rndk: operands at the edge of 48 bits, inside and outside. -/
theorem witness_XorkSboxFfnRndkCommands :
    (0x0000FFFFFFFFFFFF : Word).extractLsb' 48 16 = 0 ∧ (0x0001000000000000 : Word).extractLsb' 48 16 ≠ 0 ∧
    (0x8000000000000000 : Word).extractLsb' 48 16 ≠ 0 ∧
    (0x00000000FFFFFFFF : Word).extractLsb' 32 32 = 0 ∧
    (atExec .ffn 0xFFFFFFFF 0xFFFFFFFFFFFF).fsm = .exec := by decide

/-- Ksrot and Pc2: operands at the edge of 56 bits; and round fields just outside 1..16. -/
theorem witness_KsrotPc2Commands :
    (0x00FFFFFFFFFFFFFF : Word).extractLsb' 56 8 = 0 ∧ (0x0100000000000000 : Word).extractLsb' 56 8 ≠ 0 ∧
    (atExec (.ksrot 1) 0 0).fsm = .exec ∧ busy State.reset = false ∧
    roundInRange 0 = false ∧ roundInRange 17 = false ∧ roundInRange 31 = false := by decide

/-- Rnds and Skrd: EXEC with either value of KV, and round fields just outside 1..16. -/
theorem witness_RndsSkrdCommands :
    ((atExecCached (.rnds 1) 0).fsm = .exec ∧ (atExecCached (.rnds 1) 0).kv = true) ∧
    ((atExec (.skrd 16) 0 0).fsm = .exec ∧ (atExec (.skrd 16) 0 0).kv = false) ∧
    busy State.reset = false ∧ roundInRange 0 = false ∧ roundInRange 17 = false := by
  exact ⟨⟨rfl, rfl⟩, ⟨rfl, rfl⟩, rfl, by decide, by decide⟩

/-- SPLIT and then COMB on a block of all ones. -/
theorem witness_DatapathPropertiesTheSpecDerives_halves :
    (atExec .split 0xFFFFFFFFFFFFFFFF 0).fsm = .exec := rfl

/-- FFN's four stages at the edge of both widths. -/
theorem witness_DatapathPropertiesTheSpecDerives_stages :
    (atExec .ffn 0xFFFFFFFF 0xFFFFFFFFFFFF).fsm = .exec ∧
    (atExec .ffn 0xFFFFFFFF 0xFFFFFFFFFFFF).opa.extractLsb' 32 32 = 0 ∧
    (atExec .ffn 0xFFFFFFFF 0xFFFFFFFFFFFF).opb.extractLsb' 48 16 = 0 := by decide

/-- Sixteen RNDS commands, each fed the result of the one before. -/
theorem witness_DatapathPropertiesTheSpecDerives_rounds :
    ∃ x : Nat → Word, x 0 = ipF blockV1 ∧
      ∀ i : RoundIx, ∃ s t : State, s.fsm = .exec ∧ s.kv = true ∧ s.sk = keySchedule keyV1 ∧
        s.opa = x i.val ∧ exec (.rnds (BitVec.ofNat 5 (i.val + 1))) s = .next t ∧
        x (i.val + 1) = t.resa := by
  refine ⟨fun n => roundsF (subkeyOf keyV1) (ipF blockV1) n, rfl, fun i => ?_⟩
  refine ⟨atExecCached .nop (roundsF (subkeyOf keyV1) (ipF blockV1) i.val),
    finishedWith (roundF (roundsF (subkeyOf keyV1) (ipF blockV1) i.val) (keySchedule keyV1)[i])
      (atExecCached .nop (roundsF (subkeyOf keyV1) (ipF blockV1) i.val)), rfl, rfl, rfl, rfl, ?_, ?_⟩
  · simp only [exec, execRnds, commandStep, roundIx_ofNat]; rfl
  · show roundsF _ _ (i.val + 1) = roundF _ (keySchedule keyV1)[i]
    rw [roundsF_succ _ _ _ i.isLt]; simp [keySchedule]

theorem witness_InitializedStepPermutesDin :
    (Instr.enc = .enc ∨ Instr.enc = .dec) ∧ (accepted []).fsm = .initialized ∧
    ((atExec .nop 0 0).fsm ≠ .initialized ∧ ∃ t, engineStep (atExec .nop 0 0) = .next t) := by
  exact ⟨.inl rfl, rfl, by decide, _, rfl⟩

theorem witness_PermutedStepDerivesOrDoesRoundOne :
    (({ quiet false [] with fsm := .permuted } : State).fsm = .permuted ∧
      ({ quiet false [] with fsm := .permuted } : State).kv = false) ∧
    (({ quiet true [] with fsm := .permuted } : State).fsm = .permuted ∧
      ({ quiet true [] with fsm := .permuted } : State).kv = true) := by
  exact ⟨⟨rfl, rfl⟩, ⟨rfl, rfl⟩⟩

/-- Round counts 1 and 15, the ends of R120's range. -/
theorem witness_RoundStepDoesTheNextRound :
    (1 ≤ (1 : RoundIx).val ∧ ({ quiet true [] with fsm := .round, round := 1 } : State).fsm = .round ∧
      ({ quiet true [] with fsm := .round, round := 1 } : State).round = BitVec.ofNat 5 (1 : RoundIx).val) ∧
    (1 ≤ (15 : RoundIx).val ∧ ({ quiet true [] with fsm := .round, round := 15 } : State).fsm = .round ∧
      ({ quiet true [] with fsm := .round, round := 15 } : State).round = BitVec.ofNat 5 (15 : RoundIx).val) := by
  exact ⟨⟨by decide, rfl, rfl⟩, ⟨by decide, rfl, rfl⟩⟩

/-- A state of the given controller state and counters, with the cache filled. -/
def atFsm (f : Fsm) (round kscnt : BitVec 5) : State :=
  { quiet true [] with fsm := f, round := round, kscnt := kscnt }

/-- One state for each clause, the counters at the ends of their ranges. -/
theorem witness_StatesOutsideTheInvariantFollowTheTable :
    (roundInRange 17 = false ∧ (atFsm .exec 0 0).fsm = .exec ∧ (atFsm .exec 0 0).kv = true) ∧
    (Instr.swap ≠ .srst ∧ (atFsm .round 17 0).fsm = .round ∧ 16 < (atFsm .round 17 0).round.toNat) ∧
    ((atFsm .ksPc1 0 16).fsm = .ksPc1 ∧ 16 ≤ (atFsm .ksPc1 0 16).kscnt.toNat) ∧
    ((atFsm .ksRot 0 17).fsm = .ksRot ∧ 16 < (atFsm .ksRot 0 17).kscnt.toNat) ∧
    ((atFsm .round 0 0).fsm = .round ∧ (atFsm .round 0 0).round = 0) ∧
    (Instr.swap ≠ .enc ∧ Instr.swap ≠ .dec ∧ (atFsm .initialized 0 0).fsm = .initialized) ∧
    ({ atFsm .permuted 0 0 with kv := false } : State).kv = false ∧ (atFsm .permuted 0 0).kv = true ∧
    ((atFsm .round 15 0).round.toNat < 16 ∧ (atFsm .round 16 0).round = 16) ∧
    (atFsm .swapped 16 0).fsm = .swapped ∧
    ((atFsm .ksPc1 0 0).kscnt = BitVec.ofNat 5 (0 : RoundIx).val ∧
      (atFsm .ksRot 0 15).kscnt = BitVec.ofNat 5 (15 : RoundIx).val ∧ (atFsm .ksRot 0 16).kscnt = 16) ∧
    (busy { atFsm .exec 0 0 with lastcmd := 5 } = true ∧ busy { atFsm .swapped 0 0 with lastcmd := 4 } = true ∧
      (∀ i, decodeWord 5 = .ok i → i = .srst) ∧ (∀ i, decodeWord 4 = .ok i → i = .srst)) := by
  have h5 : decodeWord 5 = .error .undefinedOpcode := by decide
  have h4 : decodeWord 4 = .ok .srst := by decide
  refine ⟨⟨by decide, rfl, rfl⟩, ⟨by decide, rfl, by decide⟩, ⟨rfl, by decide⟩, ⟨rfl, by decide⟩, ⟨rfl, rfl⟩,
    ⟨by decide, by decide, rfl⟩, rfl, rfl, ⟨by decide, rfl⟩, rfl, ⟨rfl, rfl, rfl⟩, ⟨rfl, rfl, ?_, ?_⟩⟩
  · intro i h; rw [h5] at h; cases h
  · intro i h; rw [h4] at h; cases h; rfl

theorem witness_SwapComesBeforeTheInversePermutation :
    (({ quiet true [] with fsm := .round, round := 16 } : State).fsm = .round ∧
      ({ quiet true [] with fsm := .round, round := 16 } : State).round = 16) ∧
    (atSwapped .dec kselReverse []).fsm = .swapped := by
  exact ⟨⟨rfl, rfl⟩, rfl⟩

/-- KSCNT 0 in KS_PC1, and 1 and 15 in KS_ROT. -/
theorem witness_DerivationStepMakesOneSubkey :
    (({ quiet false [] with fsm := .ksPc1 } : State).kscnt = BitVec.ofNat 5 (0 : RoundIx).val) ∧
    (({ quiet false [] with fsm := .ksRot, kscnt := 1 } : State).kscnt = BitVec.ofNat 5 (1 : RoundIx).val) ∧
    (({ quiet false [] with fsm := .ksRot, kscnt := 15 } : State).kscnt = BitVec.ofNat 5 (15 : RoundIx).val) := by
  exact ⟨rfl, rfl, rfl⟩

theorem witness_DerivationEndReturnsToTheCommand :
    ({ quiet true [] with fsm := .ksRot, kscnt := 16 } : State).fsm = .ksRot ∧
    ({ quiet true [] with fsm := .ksRot, kscnt := 16 } : State).kscnt = 16 := ⟨rfl, rfl⟩

/-- The V1 key and the same key with all eight parity bits flipped (D-CIPH). -/
theorem witness_KeyScheduleTurnsFullyAndIgnoresParity :
    keyV1 &&& 0xFEFEFEFEFEFEFEFE = (0xABBA08192637CDDC : Word) &&& 0xFEFEFEFEFEFEFEFE := by decide

theorem quiet_cache (kv : Bool) (inputs : List Input) : CacheInv (quiet kv inputs) := by
  intro h i
  have hk : kv = true := h
  subst hk
  simp [quiet, keySchedule]

theorem ranges_ok (rd : BitVec 5) (v : Word) (hr : rd.toNat ≤ 16) (hv : rsvOf v = 0) {s : State}
    (h : s.round = rd ∧ s.kscnt = 0 ∧ s.ecode = 0 ∧ s.err = false ∧ s.lastcmd = v) : RangesInv s := by
  obtain ⟨h1, h2, h3, h4, h5⟩ := h
  simp [RangesInv, h1, h2, h3, h4, h5, hr, hv]

/-- A quiet state meets the invariant. -/
theorem quiet_inv (kv : Bool) (inputs : List Input) : EngineInv (quiet kv inputs) :=
  inv_of_not_busy rfl (ranges_ok 0 0 (by decide) (by decide) ⟨rfl, rfl, rfl, rfl, rfl⟩) (quiet_cache kv inputs)
    ⟨.nop, (by decide : decodeWord 0 = .ok .nop)⟩

/-- The state after ENC's acceptance meets the invariant. -/
theorem accepted_inv (inputs : List Input) : EngineInv (accepted inputs) where
  ranges := ranges_ok 0 (encode .enc) (by decide) (by decide) ⟨rfl, rfl, rfl, rfl, rfl⟩
  cache := by intro h; cases h
  latched := ⟨.enc, (by decide : decodeWord (encode .enc) = .ok .enc), .inl rfl⟩
  schedule := by simp [ScheduleInv, accepted, inDerivation]
  cipher := by simp [CipherInv, accepted, inDerivation, State.reset]

/-- A SWAPPED state of ENC and one of DEC meet the invariant. -/
theorem atSwapped_inv (i : Instr) (ksel : RoundIx → Subkey) (inputs : List Input)
    (h : (i = .enc ∧ ksel = subkeyOf keyV1) ∨ (i = .dec ∧ ksel = kselReverse)) :
    EngineInv (atSwapped i ksel inputs) where
  ranges := ranges_ok 16 (encode i) (by decide) (rsvOf_encode i) ⟨rfl, rfl, rfl, rfl, rfl⟩
  cache := (cacheInv_congr rfl rfl rfl).2 (quiet_cache true inputs)
  latched := by
    rcases h with ⟨rfl, rfl⟩ | ⟨rfl, rfl⟩
    · exact ⟨.enc, (by decide : decodeWord (encode .enc) = .ok .enc), .inl rfl⟩
    · exact ⟨.dec, (by decide : decodeWord (encode .dec) = .ok .dec), .inr rfl⟩
  schedule := by simp [ScheduleInv, atSwapped, inDerivation]
  cipher := by
    refine ⟨by simp [atSwapped], by simp [atSwapped, inDerivation], by simp [atSwapped], fun _ => ?_⟩
    refine ⟨rfl, rfl, ?_⟩
    have hb : block (atSwapped i ksel inputs) = swappedBlock ksel := hi32_append_lo32 _
    have hk : cipherSubkeys (atSwapped i ksel inputs) = ksel := by
      rcases h with ⟨rfl, rfl⟩ | ⟨rfl, rfl⟩ <;> rfl
    rw [hb, hk]; rfl

theorem witness_EveryStepKeepsTheInvariant :
    EngineInv (accepted []) ∧ ∃ t, step (accepted []) = .next t := ⟨accepted_inv [], _, rfl⟩

theorem witness_NoStepIsStuckUnderTheInvariant :
    EngineInv (accepted [.read 0xF8 8]) ∧
    ∀ inp rest, (accepted [.read 0xF8 8]).inputs = inp :: rest → answered inp := by
  refine ⟨accepted_inv _, fun inp rest h => ?_⟩
  cases h; show legalAccess 0xF8 8 = true; decide

/-- The three clauses: ENC and DEC in SWAPPED; a step that changes DOUT from there; a reset that does. -/
theorem witness_DoutIsTheCipherResultUnderEveryInterleaving :
    (EngineInv (atSwapped .enc (subkeyOf keyV1) []) ∧ (atSwapped .enc (subkeyOf keyV1) []).fsm = .swapped ∧
      decodeWord (atSwapped .enc (subkeyOf keyV1) []).lastcmd = .ok .enc) ∧
    (EngineInv (atSwapped .dec kselReverse []) ∧ (atSwapped .dec kselReverse []).fsm = .swapped ∧
      decodeWord (atSwapped .dec kselReverse []).lastcmd = .ok .dec) ∧
    (∃ t, step (atSwapped .enc (subkeyOf keyV1) []) = .next t ∧ t.dout ≠ 0) ∧
    (∃ t, EngineInv { quiet true [.reset] with dout := 5 } ∧
      step { quiet true [.reset] with dout := 5 } = .next t ∧ t.dout ≠ 5) := by
  refine ⟨⟨atSwapped_inv _ _ _ (.inl ⟨rfl, rfl⟩), rfl, rfl⟩,
    ⟨atSwapped_inv _ _ _ (.inr ⟨rfl, rfl⟩), rfl, rfl⟩,
    ⟨swappedStep (atSwapped .enc (subkeyOf keyV1) []), rfl, ?_⟩,
    ⟨_, inv_congr (quiet_inv true [.reset]) rfl rfl rfl rfl rfl rfl rfl rfl rfl rfl rfl rfl rfl rfl, rfl, by decide⟩⟩
  have hb : block (atSwapped .enc (subkeyOf keyV1) []) = swappedBlock (subkeyOf keyV1) := hi32_append_lo32 _
  show fpF (block _) ≠ 0
  rw [hb]; decide +kernel

theorem witness_EncRunsToCompletion (kv : Bool) :
    EngineInv (quiet kv [.write 0x08 8 2]) ∧ busy (quiet kv [.write 0x08 8 2]) = false ∧
    (quiet kv [.write 0x08 8 2]).inputs = [.write 0x08 8 2] := ⟨quiet_inv _ _, rfl, rfl⟩

theorem witness_DecRunsToCompletion (kv : Bool) :
    EngineInv (quiet kv [.write 0x08 8 3]) ∧ busy (quiet kv [.write 0x08 8 3]) = false ∧
    (quiet kv [.write 0x08 8 3]).inputs = [.write 0x08 8 3] := ⟨quiet_inv _ _, rfl, rfl⟩

theorem witness_StepCountsOfEveryCommand (kv : Bool) :
    EngineInv (quiet kv [.write 0x08 8 (encode (.skrd 16))]) ∧ Instr.wf (.skrd 16) = true ∧
    Instr.skrd 16 ≠ .srst ∧ busy (quiet kv [.write 0x08 8 (encode (.skrd 16))]) = false ∧
    (quiet kv [.write 0x08 8 (encode (.skrd 16))]).inputs = [.write 0x08 8 (encode (.skrd 16))] ∧
    1 ≤ stepCount (.skrd 16) kv := by
  exact ⟨quiet_inv _ _, by decide, by decide, rfl, rfl, by cases kv <;> decide⟩

theorem witness_EveryRunningCommandEnds :
    EngineInv (accepted [.wait, .write 0x28 8 0]) ∧ busy (accepted [.wait, .write 0x28 8 0]) = true ∧
    ∀ inp ∈ (accepted [.wait, .write 0x28 8 0]).inputs, answered inp := by
  refine ⟨accepted_inv _, rfl, fun inp h => ?_⟩
  have h' : inp = .wait ∨ inp = .write 0x28 8 0 := by simpa [accepted] using h
  rcases h' with rfl | rfl
  · trivial
  · show legalAccess 0x28 8 = true; decide

/-- A host write to DIN while ENC runs (Program 6). -/
theorem witness_OperandsStayWhileBusy :
    busy (accepted [.write 0x28 8 0]) = true ∧ (∃ t, step (accepted [.write 0x28 8 0]) = .next t) ∧
    ∀ inp rest, (accepted [.write 0x28 8 0]).inputs = inp :: rest → ¬ abandons inp := by
  refine ⟨rfl, ⟨_, rfl⟩, fun inp rest h => ?_⟩
  cases h; rintro ⟨h, -⟩; revert h; decide

/-- Both ways an entry can change. -/
theorem witness_SubkeyFileIsWrittenOnlyByDerivation :
    (∃ t, step { accepted [] with fsm := .ksPc1, c := 0xC3C033A, d := 0x33F0CFA } = .next t ∧
      t.sk[(0 : RoundIx)] ≠ ({ accepted [] with fsm := .ksPc1, c := 0xC3C033A, d := 0x33F0CFA } : State).sk[(0 : RoundIx)]) ∧
    (∃ t, step (quiet true [.reset]) = .next t ∧ t.sk[(0 : RoundIx)] ≠ (quiet true [.reset]).sk[(0 : RoundIx)]) := by
  exact ⟨⟨_, rfl, by decide +kernel⟩, ⟨_, rfl, by decide +kernel⟩⟩

theorem witness_KeyValidIsSetByDerivationAndClearedByKeyWrites :
    (∃ t, ({ accepted [] with fsm := .ksRot, kscnt := 15 } : State).kv = false ∧
      step { accepted [] with fsm := .ksRot, kscnt := 15 } = .next t ∧ t.kv = true) ∧
    (∃ t, (quiet true [.write 0x20 8 keyV1]).kv = true ∧ busy (quiet true [.write 0x20 8 keyV1]) = false ∧
      step (quiet true [.write 0x20 8 keyV1]) = .next t ∧ t.kv = false) := by
  exact ⟨⟨_, rfl, rfl, rfl⟩, ⟨_, rfl, rfl, rfl, rfl⟩⟩

theorem witness_LastCommandIsTheLastAcceptedWord :
    (∃ t, step (quiet true [.write 0x08 8 2]) = .next t ∧ t.lastcmd ≠ (quiet true [.write 0x08 8 2]).lastcmd) ∧
    (∃ t, step (accepted [.reset]) = .next t ∧ t.lastcmd ≠ (accepted [.reset]).lastcmd) := by
  exact ⟨⟨_, rfl, by decide⟩, ⟨_, rfl, by decide⟩⟩

theorem witness_OnlyWidthChecksRaiseInAnEngineStep :
    (busy (atExec .nop 0 0) = true ∧ ∃ t, exec .nop (atExec .nop 0 0) = .next t) ∧
    (∃ t, engineStep (atExec .exp 0x100000000 0) = .next t ∧ (atExec .exp 0x100000000 0).err = false ∧
      t.err = true) := by
  exact ⟨⟨rfl, _, rfl⟩, ⟨_, rfl, rfl, by decide +kernel⟩⟩

theorem witness_ParseAndToTextAgree :
    ['A'].length ≠ 8 ∧ ['A', 'B', 'C', 'D', 'E', 'F', 'G', Char.ofNat 0x80].length = 8 ∧
    (∃ ch ∈ ['A', 'B', 'C', 'D', 'E', 'F', 'G', Char.ofNat 0x80], 0x7F < ch.toNat) :=
  ⟨by decide, rfl, Char.ofNat 0x80, by simp, by decide⟩

end Sys2Proof.Tests
end

section
/-! PROOFS. The interrupt output and the reset values (spec/10_state.md R39, R42). First what one input
does to the state and when IRQ is low, then the two obligations. -/

namespace Sys2Proof.Machine

/-! ### What one input does -/

/-- An aligned write of 8 bytes at the head of the list is performed by the next step (R52). -/
theorem step_write {s : State} {off : Offset} {v : Word} {rest : List Input}
    (hi : s.inputs = .write off 8 v :: rest) (hl : legalAccess off 8 = true) :
    step s = writeReg off v { s with inputs := rest } := by
  simp [step, hi, hostWrite, hl]

theorem step_writeStatus {s : State} {v : Word} {rest : List Input}
    (hi : s.inputs = .write 0x10 8 v :: rest) :
    step s = .next (writeStatus v { s with inputs := rest }) :=
  step_write hi (by decide)

theorem step_writeConfig {s : State} {v : Word} {rest : List Input}
    (hi : s.inputs = .write 0x18 8 v :: rest) :
    step s = .next (writeConfig v { s with inputs := rest }) :=
  step_write hi (by decide)

theorem step_reset {s : State} {rest : List Input} (hi : s.inputs = .reset :: rest) :
    step s = .next (resetEngine { s with inputs := rest }) := by
  simp [step, hi]

theorem exec_srst (s : State) : exec .srst s = .next (softReset s) := rfl

/-- A well-formed command other than SRST is accepted by an engine that is not busy (R115). -/
theorem exec_eq_accept {i : Instr} {s : State} (hi : i ≠ .srst) (hwf : i.wf = true)
    (hb : busy s = false) : exec i s = .next (accept (encode i) s) := by
  rw [exec_of_not_busy hi hb, issue, if_pos hwf]

/-! ### The level of IRQ -/

theorem irq_eq_true (s : State) :
    irq s = true ↔ (s.done = true ∧ s.die = true) ∨ (s.err = true ∧ s.eie = true) := by
  simp [irq]

theorem irq_of_clear {s : State} (hd : s.done = false) (he : s.err = false) : irq s = false := by
  simp [irq, hd, he]

theorem irq_of_masked {s : State} (hd : s.die = false) (he : s.eie = false) : irq s = false := by
  simp [irq, hd, he]

/-- SRST clears both sources and acceptance clears DONE, so with no error recorded IRQ is low after either
(R115, R129, R139). -/
theorem exec_drops_irq {i : Instr} {s : State} (hwf : i.wf = true) (hb : busy s = false)
    (he : s.err = false) : ∃ t, exec i s = .next t ∧ irq t = false := by
  by_cases hi : i = .srst
  · subst hi
    exact ⟨_, exec_srst s, irq_of_clear rfl rfl⟩
  · exact ⟨_, exec_eq_accept hi hwf hb,
      irq_of_clear (accept_done (encode i) s) ((accept_err (encode i) s).trans he)⟩

/-! ### The obligations -/

/-- Settles O13: each way IRQ drops leaves both sources clear or both masked. -/
theorem irqFollowsDoneAndErr : Obligations.IrqFollowsDoneAndErr := by
  refine ⟨irq_eq_true, ?w1c, ?mask, ?accept, ?reset, ?srst⟩
  case w1c =>
    intro s v rest hi h1 h3
    exact ⟨_, step_writeStatus hi, irq_of_clear (by simp [h1]) (by simp [h3])⟩
  case mask =>
    intro s v rest hi h0 h1
    exact ⟨_, step_writeConfig hi, irq_of_masked h0 h1⟩
  case accept =>
    intro i s hwf hb he
    exact exec_drops_irq hwf hb he
  case reset =>
    intro s rest hi
    exact ⟨_, step_reset hi, irq_of_clear rfl rfl⟩
  case srst =>
    intro s
    exact ⟨_, exec_srst s, irq_of_clear rfl rfl⟩

/-- At reset every entry of the subkey file is zero (R42). -/
theorem reset_sk_getElem (i : RoundIx) : State.reset.sk[i] = 0 :=
  Vector.getElem_replicate i.isLt

/-- Settles O14: the fields are those of `State.reset`, and the port words are computed from them. -/
theorem resetValuesOfEveryRegister : Obligations.ResetValuesOfEveryRegister := by
  unfold Obligations.ResetValuesOfEveryRegister
  have hbusy : busy State.reset = false := (busy_eq_false _).2 (.inl rfl)
  have hirq : irq State.reset = false := irq_of_clear rfl rfl
  have hstatus : statusWord State.reset = 0 := by decide
  have hconfig : configWord State.reset = 0 := by decide
  have hkscd : kscdWord State.reset = 0 := by decide
  exact ⟨rfl, rfl, rfl, rfl, rfl, rfl, rfl, rfl, rfl, rfl, rfl, rfl, rfl, rfl, rfl, rfl, rfl, rfl, rfl,
    rfl, rfl, reset_sk_getElem, hbusy, hirq, hstatus, hconfig, hkscd, rfl⟩

end Sys2Proof.Machine
end

section
/-! PROOFS. Host writes (spec/20_memory.md R47, R52). First what a write does to each kind of register, then
the obligation. -/

namespace Sys2Proof.Machine

/-! ### What a write does to each kind of register -/

/-- An aligned offset of the window is at most 0xF8, so 8 bytes there are a legal access (R47, R48). -/
theorem legalAccess_of_aligned {off : Offset} (h : off.toNat % 8 = 0) : legalAccess off 8 = true := by
  have hlt : off.toNat < 256 := off.isLt
  have hle : off.toNat ≤ 0xF8 := by omega
  simp [legalAccess, h, hle]

/-- W1C as conjunctions: each STATUS bit stays unless the write clears it (R26, R52). -/
theorem writeStatus_eq (v : Word) (s : State) :
    writeStatus v s = { s with
      done := s.done && !v.getLsbD 1
      err := s.err && !v.getLsbD 3
      ecode := if v.getLsbD 3 then 0 else s.ecode } := by
  have w1c : ∀ bit old : Bool, (if bit then false else old) = (old && !bit) := by decide
  simp only [writeStatus, w1c]

theorem operandWrite_of_not_busy (put : State → State) {s : State} (hb : busy s = false) :
    operandWrite put s = put s := if_neg (by simp [hb])

/-- A busy engine drops the operand and records BusyViolation, unless an error stands already (R132, R136). -/
theorem operandWrite_of_busy (put : State → State) {s : State} (hb : busy s = true) :
    operandWrite put s = { s with err := true, ecode := if s.err then s.ecode else 3 } :=
  (if_pos hb).trans (raiseError_eq .busyViolation s)

/-- The four operand registers are KEY, DIN, OPA and OPB, and a busy engine answers a write to any of them
in the same way (R136). -/
theorem writeReg_operand_of_busy {off : Offset} (v : Word) {s : State}
    (ho : off = 0x20 ∨ off = 0x28 ∨ off = 0x38 ∨ off = 0x40) (hb : busy s = true) :
    writeReg off v s = .next { s with err := true, ecode := if s.err then s.ecode else 3 } := by
  obtain rfl | rfl | rfl | rfl := ho
  all_goals exact congrArg Host.Outcome.next (operandWrite_of_busy _ hb)

/-- A write to any offset but those of CMD, STATUS, CONFIG and the operand registers is ignored (R52). -/
theorem writeReg_ignored {off : Offset} (v : Word) (s : State)
    (h : off.toNat ∉ [0x08, 0x10, 0x18, 0x20, 0x28, 0x38, 0x40]) : writeReg off v s = .next s := by
  unfold writeReg
  split
  case h_8 => rfl
  all_goals simp_all

/-- The read-only registers and the reserved offsets from 0x60 on are among the ignored ones (R46, R52). -/
theorem not_writable {off : Offset} (h : off = 0x00 ∨ off = 0x30 ∨ off = 0x48 ∨ off = 0x50 ∨
    off = 0x58 ∨ 0x60 ≤ off.toNat) : off.toNat ∉ [0x08, 0x10, 0x18, 0x20, 0x28, 0x38, 0x40] := by
  obtain rfl | rfl | rfl | rfl | rfl | h := h
  case inr.inr.inr.inr.inr =>
    simp only [List.mem_cons, List.not_mem_nil, or_false]
    omega
  all_goals decide

/-! ### The obligation -/

/-- Settles O11: an aligned write of 8 bytes is legal, so the step is `writeReg`, and the lemmas above give
that for each register. -/
theorem legalWriteEffects : Obligations.LegalWriteEffects := by
  intro s off v rest hi ha
  have hbusy : busy { s with inputs := rest } = busy s := busy_congr rfl
  rw [step_write hi (legalAccess_of_aligned ha)]
  refine ⟨?cmd, ?status, ?config, ?key, ?din, ?opa, ?opb, ?operandBusy, ?ignored⟩
  case cmd => rintro rfl; rfl
  case status => rintro rfl; exact congrArg Host.Outcome.next (writeStatus_eq v _)
  case config => rintro rfl; rfl
  case operandBusy => intro ho hb; exact writeReg_operand_of_busy v ho (hbusy.trans hb)
  case ignored => intro ho; exact writeReg_ignored v _ (not_writable ho)
  all_goals
    rintro rfl hb
    exact congrArg Host.Outcome.next (operandWrite_of_not_busy _ (hbusy.trans hb))

end Sys2Proof.Machine
end

section
/-! PROOFS. Which words decode (spec/30_encoding.md R64, R67, R68). Every check of the decoder is one guard:
first what a guard lets through, then which fields each format and the opcode map accept, then the
obligation. -/

namespace Sys2Proof

/-! ### What the decoder accepts, layer by layer -/

/-- A guarded decoding succeeds when the guard holds and what it guards succeeds. -/
theorem guard_isOk {p : Prop} [Decidable p] {e : DecodeError} {x : Except DecodeError Instr} :
    (∃ i, (if p then x else .error e) = .ok i) ↔ p ∧ ∃ i, x = .ok i := by
  by_cases h : p <;> simp [h]

theorem formatC0_isOk (rnd : BitVec 5) (i : Instr) : (∃ j, formatC0 rnd i = .ok j) ↔ rnd = 0 :=
  guard_isOk.trans (and_iff_left ⟨i, rfl⟩)

theorem formatCR_isOk (rnd : BitVec 5) (i : BitVec 5 → Instr) :
    (∃ j, formatCR rnd i = .ok j) ↔ 1 ≤ rnd.toNat ∧ rnd.toNat ≤ 16 :=
  calc (∃ j, formatCR rnd i = .ok j)
    _ ↔ roundInRange rnd = true := guard_isOk.trans (and_iff_left ⟨i rnd, rfl⟩)
    _ ↔ 1 ≤ rnd.toNat ∧ rnd.toNat ≤ 16 := by simp [roundInRange]

/-- R67: the opcodes of format CR are 0x1B, 0x21 and 0x23 (rows 17, 19 and 21 of the map); every other row
has format C0. -/
theorem decodeFields_isOk (opc : Nat) (rnd : BitVec 5) :
    (∃ i, decodeFields opc rnd = .ok i) ↔
      (opc ≤ 0x04 ∨ (0x10 ≤ opc ∧ opc ≤ 0x1B) ∨ (0x20 ≤ opc ∧ opc ≤ 0x23)) ∧
      (if opc = 0x1B ∨ opc = 0x21 ∨ opc = 0x23 then 1 ≤ rnd.toNat ∧ rnd.toNat ≤ 16 else rnd = 0) := by
  unfold decodeFields
  split
  case h_17 | h_19 | h_21 => simp [formatCR_isOk]
  case h_22 => -- no row of the map
    have undefined : ¬ (opc ≤ 0x04 ∨ (0x10 ≤ opc ∧ opc ≤ 0x1B) ∨ (0x20 ≤ opc ∧ opc ≤ 0x23)) := by
      simp only [imp_false] at *
      omega
    simp [undefined]
  all_goals simp [formatC0_isOk]

theorem decodeWord_isOk (v : Word) :
    (∃ i, decodeWord v = .ok i) ↔
      rsvOf v = 0 ∧ ∃ i, decodeFields (opcOf v).toNat (rndOf v) = .ok i :=
  guard_isOk

/-! ### The obligation -/

/-- Settles O2: `rsvOf`, `opcOf` and `rndOf` are the three fields the rule names, and an opcode equals a
constant exactly when its number does. -/
theorem legalWordsAreTheOnesThatDecode : Obligations.LegalWordsAreTheOnesThatDecode := by
  intro v
  rw [decodeWord_isOk, decodeFields_isOk]
  simp only [← BitVec.toNat_inj (x := v.extractLsb' 0 8)]
  rfl

end Sys2Proof
end

section
/-! PROOFS. The datapath commands (spec/41_datapath.md R93 to R103) in their EXEC step. First the EXEC step of
each command, the width checks it makes and the two ways it ends; then the bits of the permutations and
S-boxes; then who writes RESB; then the obligations. -/

namespace Sys2Proof.Machine

/-! ### The EXEC step -/

/-- In EXEC a command's next step is its own EXEC step (R116, R123). -/
theorem commandStep_of_exec {i : Instr} {ksel : Option (State → RoundIx → Subkey)} {f : State → Result}
    {s : State} (hs : s.fsm = .exec) : commandStep i ksel f s = f s := by
  simp [commandStep, busy_of_exec hs, runningStep, hs]

section
variable {s : State} (hs : s.fsm = .exec)
include hs

theorem exec_ip_of_exec : exec .ip s = .next (finishPrimitive true (ipF s.opa) s) :=
  commandStep_of_exec hs

theorem exec_fp_of_exec : exec .fp s = .next (finishPrimitive true (fpF s.opa) s) :=
  commandStep_of_exec hs

theorem exec_split_of_exec : exec .split s =
    .next (finishPrimitive true (zext64 (hi32 s.opa)) { s with resb := zext64 (lo32 s.opa) }) :=
  commandStep_of_exec hs

theorem exec_comb_of_exec : exec .comb s =
    .next (finishPrimitive (fitsHalf s.opa && fitsHalf s.opb) (lo32 s.opa ++ lo32 s.opb) s) :=
  commandStep_of_exec hs

theorem exec_swap_of_exec : exec .swap s = .next (finishPrimitive true (swapHalves s.opa) s) :=
  commandStep_of_exec hs

theorem exec_exp_of_exec : exec .exp s =
    .next (finishPrimitive (fitsHalf s.opa) (zext64 (eF (lo32 s.opa))) s) :=
  commandStep_of_exec hs

theorem exec_xork_of_exec : exec .xork s =
    .next (finishPrimitive (fitsSubkey s.opa && fitsSubkey s.opb) (zext64 (lo48 s.opa ^^^ lo48 s.opb)) s) :=
  commandStep_of_exec hs

theorem exec_sbox_of_exec : exec .sbox s =
    .next (finishPrimitive (fitsSubkey s.opa) (zext64 (sF (lo48 s.opa))) s) :=
  commandStep_of_exec hs

theorem exec_permp_of_exec : exec .permp s =
    .next (finishPrimitive (fitsHalf s.opa) (zext64 (pF (lo32 s.opa))) s) :=
  commandStep_of_exec hs

theorem exec_rndk_of_exec : exec .rndk s =
    .next (finishPrimitive (fitsSubkey s.opb) (roundF s.opa (lo48 s.opb)) s) :=
  commandStep_of_exec hs

end

/-! ### The width checks and the two ways a primitive ends (R91, R133) -/

theorem fitsHalf_eq_true {v : Word} : fitsHalf v = true ↔ v.extractLsb' 32 32 = 0 := beq_iff_eq

theorem fitsHalf_eq_false {v : Word} : fitsHalf v = false ↔ v.extractLsb' 32 32 ≠ 0 :=
  beq_eq_false_iff_ne

theorem fitsSubkey_eq_true {v : Word} : fitsSubkey v = true ↔ v.extractLsb' 48 16 = 0 := beq_iff_eq

theorem fitsSubkey_eq_false {v : Word} : fitsSubkey v = false ↔ v.extractLsb' 48 16 ≠ 0 :=
  beq_eq_false_iff_ne

/-- A step that finishes a primitive whose checks hold writes the result. -/
theorem eq_finishedWith {r : Result} {ok : Bool} {v : Word} {s : State}
    (hr : r = .next (finishPrimitive ok v s)) (hok : ok = true) : r = .next (finishedWith v s) := by
  rw [hr, hok, finishPrimitive_true]

/-- A step that finishes a primitive with a failed check writes none. -/
theorem eq_endedInWidthViolation {r : Result} {ok : Bool} {v : Word} {s : State}
    (hr : r = .next (finishPrimitive ok v s)) (hok : ok = false) :
    r = .next (endedInWidthViolation s) := by
  rw [hr, hok, finishPrimitive_false]

/-! ### Values: 48-bit operands, halves, permutations, S-boxes -/

/-- A word that fits in 48 bits is its low 48 bits, zero-extended (R14, R91). -/
theorem zext64_lo48 {v : Word} (h : fitsSubkey v = true) : zext64 (lo48 v) = v := by
  have hv := concat_extract (n := 16) (m := 48) v
  rw [fitsSubkey_eq_true.1 h] at hv
  exact (BitVec.setWidth_eq_append (by decide)).trans hv

theorem swapHalves_append (a b : Half) : swapHalves (a ++ b) = b ++ a := by
  simp only [swapHalves, hi32_append, lo32_append]

theorem swapHalves_swapHalves (v : Word) : swapHalves (swapHalves v) = v :=
  (swapHalves_append (lo32 v) (hi32 v)).trans (hi32_append_lo32 v)

theorem hi32_roundF (b : Word) (k : Subkey) : hi32 (roundF b k) = lo32 b := hi32_append _ _

/-- `getMsbD_perm` with bits numbered from the least significant: position `p` of `w` bits is bit `w - p`
(R12, R13). -/
theorem getLsbD_perm (T : List Nat) {w n : Nat} (v : BitVec w) (hT : T.length = n)
    (hp : ∀ p ∈ T, 1 ≤ p ∧ p ≤ w) (j : Fin n) :
    (perm T v n).getLsbD (n - 1 - j.val) = v.getLsbD (w - T.getD j.val 0) := by
  have hj : j.val < T.length := hT ▸ j.isLt
  have hmem : T.getD j.val 0 ∈ T := List.getD_eq_getElem T 0 hj ▸ List.getElem_mem hj
  have hbit := getMsbD_perm T v hT j.val j.isLt
  generalize T.getD j.val 0 = p at hmem hbit
  obtain ⟨h1, hw⟩ := hp p hmem
  have hlt : p - 1 < w := by omega
  have hpos : w - 1 - (p - 1) = w - p := by omega
  simpa [BitVec.getMsbD_eq_getLsbD, hlt, hpos] using hbit

/-- The S-boxes in the order of their groups (R88). -/
def sboxTables : List (List (List Nat)) :=
  [tableS1, tableS2, tableS3, tableS4, tableS5, tableS6, tableS7, tableS8]

/-- A nibble appended below moves every other nibble up by four bits. -/
theorem extract_nibble_append {n s : Nat} {a : BitVec n} {b c : BitVec 4} (h : a.extractLsb' s 4 = c) :
    (a ++ b).extractLsb' (s + 4) 4 = c :=
  (extract_concat_of_ge a b (s + 4) 4 (Nat.le_add_left 4 s)).trans h

/-- Nibble `i` of `Sf` is S-box `i` of group `i`, both counted from the most significant end (R88). -/
theorem sF_extract (x : Subkey) (i : Fin 8) :
    (sF x).extractLsb' (28 - 4 * i.val) 4 =
      sboxAt (sboxTables.getD i.val []) (x.extractLsb' (42 - 6 * i.val) 6) := by
  fin_cases i
  all_goals
    unfold sF
    repeat apply extract_nibble_append
  · exact BitVec.extractLsb'_eq_self -- the top nibble is what is left of the concatenation
  all_goals exact extract_lo_concat _ _

/-- What holds of every element and of the default holds of every lookup. -/
theorem forall_getD {α : Type} {p : α → Prop} {l : List α} {d : α} (hl : ∀ a ∈ l, p a) (hd : p d)
    (n : Nat) : p (l.getD n d) := by
  by_cases hn : n < l.length
  · exact List.getD_eq_getElem l d hn ▸ hl _ (List.getElem_mem hn)
  · exact (List.getD_eq_default l d (Nat.le_of_not_lt hn)).symm ▸ hd

/-- Every lookup in an S-box gives a nibble (R80 to R87). -/
theorem sbox_entry_lt (i row col : Nat) :
    ((sboxTables.getD i []).getD row []).getD col 0 < 16 := by
  have entries : ∀ S ∈ sboxTables, ∀ r ∈ S, ∀ e ∈ r, e < 16 := by decide
  have rows := forall_getD (d := []) entries (List.forall_mem_nil _) i
  have cols := forall_getD (d := []) rows (List.forall_mem_nil _) row
  exact forall_getD cols (by decide) col

/-- A substituted group as a number: the table entry itself, none of it cut off (R79). -/
theorem toNat_sboxAt (i : Nat) (g : BitVec 6) :
    (sboxAt (sboxTables.getD i []) g).toNat =
      ((sboxTables.getD i []).getD (2 * (g.extractLsb' 5 1).toNat + (g.extractLsb' 0 1).toNat) []).getD
        (g.extractLsb' 1 4).toNat 0 :=
  (BitVec.toNat_ofNat _ _).trans (Nat.mod_eq_of_lt (sbox_entry_lt i _ _))

/-- Nibble `i` of `Sf` as a number, its row and column read off the whole operand (R79, R88). -/
theorem toNat_sF_extract (x : Subkey) (i : Fin 8) :
    ((sF x).extractLsb' (28 - 4 * i.val) 4).toNat =
      ((sboxTables.getD i.val []).getD
        (2 * (x.extractLsb' (47 - 6 * i.val) 1).toNat + (x.extractLsb' (42 - 6 * i.val) 1).toNat)
        []).getD (x.extractLsb' (43 - 6 * i.val) 4).toNat 0 := by
  have outer : 42 - 6 * i.val + 5 = 47 - 6 * i.val := by omega
  have inner : 42 - 6 * i.val + 1 = 43 - 6 * i.val := by omega
  rw [sF_extract, toNat_sboxAt, extract_extract _ _ _ 5 1 (by decide), extract_extract _ _ _ 0 1 (by decide),
    extract_extract _ _ _ 1 4 (by decide), outer, inner, Nat.add_zero]

/-! ### Who writes RESB (R95) -/

/-- What a command's next step can do: issue, its EXEC step, or a row of the controller that asks for none
(R115, R116, R123). -/
theorem exec_case {i : Instr} {s t : State} (hi : i ≠ .srst) (h : exec i s = .next t) :
    t = issue i s ∨ ExecCase i s t ∨ RunCase (kselOf i) (fun _ => .fault .noTransition) s t := by
  cases hb : busy s
  case false =>
    rw [exec_of_not_busy hi hb] at h
    injection h with h
    exact .inl h.symm
  case true =>
    by_cases he : s.fsm = .exec
    · have no_cipher (hc : exec i s = .fault .noTransition) : False := by simp [hc] at h
      have hc : i ≠ .enc := by rintro rfl; exact no_cipher (commandStep_of_exec he)
      have hd : i ≠ .dec := by rintro rfl; exact no_cipher (commandStep_of_exec he)
      exact .inr (.inl (exec_exec_case hi hc hd he h))
    · rw [exec_of_running _ hi hb he] at h
      exact .inr (.inr (runningStep_case h))

theorem issue_resb (i : Instr) (s : State) : (issue i s).resb = s.resb := by
  unfold issue; split <;> simp

theorem runCase_resb {k f} {s t : State} (hf : ∀ u, f s ≠ .next u) (h : RunCase k f s t) :
    t.resb = s.resb := by
  cases h
  case exec _ h => exact absurd h (hf t)
  all_goals rfl

theorem execCase_resb {i : Instr} {s t : State} (hi : i ≠ .split) (h : ExecCase i s t) :
    t.resb = s.resb := by
  cases h
  case result v vb hvb => simp [hvb hi]
  all_goals simp

/-- No command but SPLIT, and SRST which resets it, changes RESB. -/
theorem exec_resb {i : Instr} {s t : State} (hsplit : i ≠ .split) (hsrst : i ≠ .srst)
    (h : exec i s = .next t) : t.resb = s.resb := by
  obtain rfl | h | h := exec_case hsrst h
  · exact issue_resb i s
  · exact execCase_resb hsplit h
  · exact runCase_resb (by simp) h

/-! ### The obligations -/

/-- Settles O19: IP checks nothing, so its EXEC step finishes with `ipF`, a permutation. -/
theorem ipCommand : Obligations.IpCommand :=
  ⟨rfl, fun _ hs => exec_ip_of_exec hs, fun v => getLsbD_perm tableIP v rfl (by decide)⟩

/-- Settles O20: FP checks nothing, so its EXEC step finishes with `fpF`, a permutation. -/
theorem fpCommand : Obligations.FpCommand :=
  ⟨rfl, fun _ hs => exec_fp_of_exec hs, fun v => getLsbD_perm tableFP v rfl (by decide)⟩

/-- Settles O21: no case of a command's next step but SPLIT's result touches RESB. -/
theorem splitCommandAloneWritesResb : Obligations.SplitCommandAloneWritesResb :=
  ⟨rfl, fun _ hs => exec_split_of_exec hs, fun _ _ _ => exec_resb⟩

/-- Settles O22: COMB's check is that both operands fit in a half. -/
theorem combCommand : Obligations.CombCommand := by
  refine ⟨rfl, ?fits, ?tooWide⟩
  case fits =>
    intro s hs ha hb
    exact eq_finishedWith (exec_comb_of_exec hs) (by simp [fitsHalf_eq_true.2 ha, fitsHalf_eq_true.2 hb])
  case tooWide =>
    intro s hs h
    exact eq_endedInWidthViolation (exec_comb_of_exec hs)
      (Bool.and_eq_false_iff.2 (h.imp fitsHalf_eq_false.2 fitsHalf_eq_false.2))

/-- Settles O23: SWAP checks nothing, and both corner cases follow from its effect on a concatenation. -/
theorem swapCommand : Obligations.SwapCommand :=
  ⟨rfl, fun _ hs => exec_swap_of_exec hs, swapHalves_swapHalves, fun h => swapHalves_append h h⟩

/-- Settles O24: EXP's check is that OPA fits in a half, and `eF` is a table lookup per bit. -/
theorem expCommand : Obligations.ExpCommand :=
  ⟨rfl,
    fun _ hs ha => eq_finishedWith (exec_exp_of_exec hs) (fitsHalf_eq_true.2 ha),
    fun _ hs ha => eq_endedInWidthViolation (exec_exp_of_exec hs) (fitsHalf_eq_false.2 ha),
    fun r => getLsbD_perm tableE r rfl (by decide),
    by decide⟩

/-- Settles O25: both operands fit in 48 bits, so cutting them to 48 bits loses nothing. -/
theorem xorkCommand : Obligations.XorkCommand := by
  refine ⟨rfl, ?fits, ?tooWide⟩
  case fits =>
    intro s hs ha hb
    have hfa := fitsSubkey_eq_true.2 ha
    have hfb := fitsSubkey_eq_true.2 hb
    have hxor : zext64 (lo48 s.opa ^^^ lo48 s.opb) = s.opa ^^^ s.opb :=
      calc zext64 (lo48 s.opa ^^^ lo48 s.opb)
        _ = zext64 (lo48 s.opa) ^^^ zext64 (lo48 s.opb) := BitVec.setWidth_xor
        _ = s.opa ^^^ s.opb := by rw [zext64_lo48 hfa, zext64_lo48 hfb]
    exact hxor ▸ eq_finishedWith (exec_xork_of_exec hs) (by simp [hfa, hfb])
  case tooWide =>
    intro s hs h
    exact eq_endedInWidthViolation (exec_xork_of_exec hs)
      (Bool.and_eq_false_iff.2 (h.imp fitsSubkey_eq_false.2 fitsSubkey_eq_false.2))

/-- Settles O26: SBOX's check is that OPA fits in 48 bits, and `sF` is a table lookup per nibble. -/
theorem sboxCommand : Obligations.SboxCommand :=
  ⟨rfl,
    fun _ hs ha => eq_finishedWith (exec_sbox_of_exec hs) (fitsSubkey_eq_true.2 ha),
    fun _ hs ha => eq_endedInWidthViolation (exec_sbox_of_exec hs) (fitsSubkey_eq_false.2 ha),
    toNat_sF_extract,
    by decide⟩

/-- Settles O27: PERMP's check is that OPA fits in a half, and `pF` is a permutation. -/
theorem permpCommand : Obligations.PermpCommand :=
  ⟨rfl,
    fun _ hs ha => eq_finishedWith (exec_permp_of_exec hs) (fitsHalf_eq_true.2 ha),
    fun _ hs ha => eq_endedInWidthViolation (exec_permp_of_exec hs) (fitsHalf_eq_false.2 ha),
    fun v => getLsbD_perm tableP v rfl (by decide),
    by decide⟩

/-- Settles O29: RNDK's only check is that OPB fits in 48 bits. -/
theorem rndkCommand : Obligations.RndkCommand :=
  ⟨rfl,
    fun _ hs hb => eq_finishedWith (exec_rndk_of_exec hs) (fitsSubkey_eq_true.2 hb),
    fun _ hs hb => eq_endedInWidthViolation (exec_rndk_of_exec hs) (fitsSubkey_eq_false.2 hb),
    hi32_roundF,
    by decide +kernel⟩

end Sys2Proof.Machine
end

section
/-! PROOFS. The key-schedule commands PC1, KSROT and PC2 (spec/42_key_schedule.md R110 to R112). First their
EXEC steps, the width check and what happens to a round index out of range; then the positions a permutation
does not use; then the rotation stages; then the obligations. -/

namespace Sys2Proof.Machine

/-! ### The EXEC step, the width check, and issue of an ill-formed command -/

section
variable {s : State} (hs : s.fsm = .exec)
include hs

theorem exec_pc1_of_exec : exec .pc1 s = .next (finishPrimitive true (zext64 (pc1F s.opa)) s) :=
  commandStep_of_exec hs

theorem exec_ksrot_of_exec (i : RoundIx) : exec (.ksrot (BitVec.ofNat 5 (i.val + 1))) s =
    .next (finishPrimitive (fitsHalves s.opa) (zext64 (rotateHalves (lo56 s.opa) i)) s) :=
  (commandStep_of_exec hs).trans (by rw [roundIx_ofNat])

theorem exec_pc2_of_exec : exec .pc2 s =
    .next (finishPrimitive (fitsHalves s.opa) (zext64 (pc2F (lo56 s.opa))) s) :=
  commandStep_of_exec hs

end

theorem fitsHalves_eq_true {v : Word} : fitsHalves v = true ↔ v.extractLsb' 56 8 = 0 := beq_iff_eq

theorem fitsHalves_eq_false {v : Word} : fitsHalves v = false ↔ v.extractLsb' 56 8 ≠ 0 :=
  beq_eq_false_iff_ne

/-- An ill-formed command is not accepted: it raises IllegalCommand, unless an error stands already (R132,
R135). -/
theorem exec_eq_illegalCommand {i : Instr} {s : State} (hi : i ≠ .srst) (hwf : i.wf = false)
    (hb : busy s = false) :
    exec i s = .next { s with err := true, ecode := if s.err then s.ecode else 2 } := by
  rw [exec_of_not_busy hi hb, issue, if_neg (by simp [hwf]), raiseError_eq]
  rfl

/-! ### What a permutation does not use (R76, R77) -/

/-- A permutation looks at the positions its table names and at no others. -/
theorem perm_congr {T : List Nat} {w n : Nat} {u v : BitVec w}
    (h : ∀ p ∈ T, u.getMsbD (p - 1) = v.getMsbD (p - 1)) : perm T u n = perm T v n :=
  congrArg (fun bits => (BitVec.ofBoolListBE bits).setWidth n) (List.map_congr_left h)

/-- Flipping a position that the table does not name has no effect. -/
theorem perm_flip_unused {T : List Nat} {w n q : Nat} (v : BitVec w) (hT : ∀ p ∈ T, 1 ≤ p ∧ p ≤ w)
    (hq : 1 ≤ q ∧ q ≤ w) (unused : q ∉ T) : perm T (v ^^^ 1#w <<< (w - q)) n = perm T v n := by
  apply perm_congr
  intro p hp
  have hne : p ≠ q := ne_of_mem_of_not_mem hp unused
  have hrange := hT p hp
  have hbit : (BitVec.twoPow w (w - q)).getMsbD (p - 1) = false := by
    have hpos : w - q ≠ w - 1 - (p - 1) := by omega
    simp [BitVec.getMsbD_eq_getLsbD, BitVec.getLsbD_twoPow, hpos]
  rw [← BitVec.twoPow_eq, BitVec.getMsbD_xor, hbit, Bool.xor_false]

theorem tablePC1_positions : ∀ p ∈ tablePC1, 1 ≤ p ∧ p ≤ 64 := by decide

theorem tablePC2_positions : ∀ p ∈ tablePC2, 1 ≤ p ∧ p ≤ 56 := by decide

/-- Bit `8j` of a key, the parity bit of byte `j`, does not reach `PC1f` (R76, R106). -/
theorem pc1F_flip_parity (k : Word) (j : Fin 8) : pc1F (k ^^^ (1#64 <<< (8 * j.val))) = pc1F k := by
  have unused : ∀ j : Fin 8, 64 - 8 * j.val ∉ tablePC1 := by decide
  have hbit : 8 * j.val = 64 - (64 - 8 * j.val) := by omega
  rw [hbit]
  exact perm_flip_unused k tablePC1_positions (by omega) (unused j)

/-- The eight positions PC2 leaves out (R77). -/
theorem pc2F_flip_unused (cd : KeyHalves) (p : Nat) (hp : p ∈ [9, 18, 22, 25, 35, 38, 43, 54]) :
    pc2F (cd ^^^ (1#56 <<< (56 - p))) = pc2F cd := by
  have unused : ∀ p ∈ [9, 18, 22, 25, 35, 38, 43, 54], (1 ≤ p ∧ p ≤ 56) ∧ p ∉ tablePC2 := by decide
  obtain ⟨hrange, hnot⟩ := unused p hp
  exact perm_flip_unused cd tablePC2_positions hrange hnot

/-! ### The rotation stages (R78, R105, R111) -/

theorem cHalf_lo56 (v : Word) : cHalf (lo56 v) = v.extractLsb' 28 28 :=
  extract_extract v 0 56 28 28 (by decide)

theorem dHalf_lo56 (v : Word) : dHalf (lo56 v) = v.extractLsb' 0 28 :=
  extract_extract v 0 56 0 28 (by decide)

theorem rotateHalves_lo56 (v : Word) (i : RoundIx) : rotateHalves (lo56 v) i =
    rotl28 (v.extractLsb' 28 28) (shift i) ++ rotl28 (v.extractLsb' 0 28) (shift i) := by
  rw [rotateHalves, cHalf_lo56, dHalf_lo56]

/-- Bit `j` of a half turned left comes from `n` places below it, around the end (R14). -/
theorem getLsbD_rotl28 (x : KeyHalf) (n : Nat) {j : Nat} (hj : j < 28) :
    (rotl28 x n).getLsbD j = x.getLsbD ((j + (28 - n % 28)) % 28) := by
  rw [rotl28, BitVec.getLsbD_rotateLeft]
  by_cases h : j < n % 28
  · have hsrc : 28 - n % 28 + j = (j + (28 - n % 28)) % 28 := by omega
    rw [decide_eq_true h, cond_true, hsrc]
  · have hsrc : j - n % 28 = (j + (28 - n % 28)) % 28 := by omega
    rw [decide_eq_false h, cond_false, decide_eq_true hj, Bool.true_and, hsrc]

/-- Turns add up. -/
theorem rotl28_rotl28 (x : KeyHalf) (m n : Nat) : rotl28 (rotl28 x m) n = rotl28 x (m + n) := by
  apply BitVec.eq_of_getLsbD_eq
  intro j hj
  rw [getLsbD_rotl28 _ n hj, getLsbD_rotl28 x m (Nat.mod_lt _ (by decide)), getLsbD_rotl28 x (m + n) hj]
  congr 1
  omega

/-- No turn, or a full one, changes nothing. -/
theorem rotl28_of_mod_eq_zero (x : KeyHalf) {n : Nat} (hn : n % 28 = 0) : rotl28 x n = x := by
  apply BitVec.eq_of_getLsbD_eq
  intro j hj
  rw [getLsbD_rotl28 x n hj]
  congr 1
  omega

/-- A sequence of stages turns each half by the sum of their shifts. -/
theorem foldl_rotateHalves (l : List RoundIx) (cd : KeyHalves) : l.foldl rotateHalves cd =
    rotl28 (cHalf cd) (l.map shift).sum ++ rotl28 (dHalf cd) (l.map shift).sum := by
  induction l generalizing cd with
  | nil => simp [rotl28_of_mod_eq_zero]
  | cons i l ih =>
    rw [List.foldl_cons, ih, rotateHalves, cHalf_append, dHalf_append, rotl28_rotl28, rotl28_rotl28,
      List.map_cons, List.sum_cons]

/-- The sixteen shifts add up to 28, a full turn (R78). -/
theorem foldl_rotateHalves_finRange (cd : KeyHalves) : (List.finRange 16).foldl rotateHalves cd = cd := by
  have full : ((List.finRange 16).map shift).sum = 28 := by decide
  rw [foldl_rotateHalves, full, rotl28_of_mod_eq_zero _ rfl, rotl28_of_mod_eq_zero _ rfl,
    cHalf_append_dHalf]

/-! ### The obligations -/

/-- Settles O31: PC1 checks nothing, and `pc1F` is a permutation that no parity position reaches. -/
theorem pc1Command : Obligations.Pc1Command :=
  ⟨rfl, fun _ hs => exec_pc1_of_exec hs,
    fun k => getLsbD_perm tablePC1 k rfl tablePC1_positions,
    pc1F_flip_parity,
    by decide +kernel⟩

/-- Settles O32: KSROT's check is that OPA fits in 56 bits, and sixteen stages add up to a full turn. -/
theorem ksrotCommand : Obligations.KsrotCommand := by
  refine ⟨?fits, ?tooWide, ?illegal, foldl_rotateHalves_finRange⟩
  case fits =>
    intro s i hs ha
    have hstep := eq_finishedWith (exec_ksrot_of_exec hs i) (fitsHalves_eq_true.2 ha)
    rwa [rotateHalves_lo56] at hstep
  case tooWide =>
    intro s i hs ha
    exact eq_endedInWidthViolation (exec_ksrot_of_exec hs i) (fitsHalves_eq_false.2 ha)
  case illegal =>
    intro s rnd hr hb
    exact exec_eq_illegalCommand (by simp) hr hb

/-- Settles O33: PC2's check is that OPA fits in 56 bits, and `pc2F` is a permutation that eight positions
do not reach. -/
theorem pc2Command : Obligations.Pc2Command :=
  ⟨rfl,
    fun _ hs ha => eq_finishedWith (exec_pc2_of_exec hs) (fitsHalves_eq_true.2 ha),
    fun _ hs ha => eq_endedInWidthViolation (exec_pc2_of_exec hs) (fitsHalves_eq_false.2 ha),
    fun cd => getLsbD_perm tablePC2 cd rfl tablePC2_positions,
    pc2F_flip_unused,
    by decide⟩

end Sys2Proof.Machine
end

section
/-! PROOFS. The controller (spec/43_controller.md R115 to R122, R128, R129): acceptance, SRST and NOP, and the
steps of ENC and DEC. First acceptance and writes to CMD; then the rows of the controller as equations; then
which steps do not look at DIN; then the obligations. -/

namespace Sys2Proof.Machine

/-! ### Acceptance and writes to CMD (R115, R129, R137) -/

/-- The opcodes 0x02 and 0x03, which acceptance singles out, are those of ENC and DEC (R67, R115). -/
theorem opcode_cipher (i : Instr) : opcode i = 0x02 ∨ opcode i = 0x03 ↔ i = .enc ∨ i = .dec := by
  cases i <;> simp [opcode]

/-- Acceptance by the command accepted, not by its word (R115). -/
theorem accept_encode (i : Instr) (s : State) : accept (encode i) s = { s with
    lastcmd := encode i
    done := false
    round := if i = .enc ∨ i = .dec then 0 else s.round
    fsm := if i = .enc ∨ i = .dec then .initialized else .exec } := by
  unfold accept
  rw [opcOf_encode]
  simp only [opcode_cipher]
  by_cases hi : i = .enc ∨ i = .dec <;> simp [hi]

theorem step_writeCmd {s : State} {v : Word} {rest : List Input} (hi : s.inputs = .write 0x08 8 v :: rest) :
    step s = commandWrite v { s with inputs := rest } :=
  step_write hi (by decide)

theorem commandWrite_srst (s : State) : commandWrite srstWord s = .next (softReset s) := if_pos rfl

/-- A busy engine drops every word but SRST and records BusyViolation, unless an error stands already (R132,
R137). -/
theorem commandWrite_of_busy {v : Word} {s : State} (hv : v ≠ srstWord) (hb : busy s = true) :
    commandWrite v s = .next { s with err := true, ecode := if s.err then s.ecode else 3 } := by
  rw [commandWrite, if_neg hv, if_pos hb, raiseError_eq]
  rfl

/-! ### The rows of the controller (R116 to R122) -/

/-- `RunCase` lists exactly what `runningStep` answers: its rows are also sufficient. -/
theorem runningStep_of_case {ksel : Option (State → RoundIx → Subkey)} {f : State → Result} {s t : State}
    (h : RunCase ksel f s t) : runningStep ksel f s = .next t := by
  unfold runningStep
  cases h with
  | initialized h => simp [h]
  | derive h hk => simp [h, hk]
  | firstRound sel h hk hs => simp [h, hk, hs]
  | nextRound sel h hr hs => simp [h, hr, hs]
  | swap h hr => simp [h, hr]
  | swapped h => simp [h]
  | derivation h hk => obtain h | h := h <;> simp [h, hk]
  | derivationEnd h hk => simp [h, hk]
  | exec t h hf => simp [h, hf]
  | quiet h => obtain h | h := h <;> simp [h]

/-- A running ENC or DEC takes the row of the controller that its state selects. -/
theorem exec_cipher_of_runCase {i : Instr} {s t : State} (hi : i = .enc ∨ i = .dec) (hb : busy s = true)
    (h : RunCase (kselOf i) noExecStep s t) : exec i s = .next t := by
  obtain rfl | rfl := hi <;> exact (if_pos hb).trans (runningStep_of_case h)

theorem engineStep_of_not_busy {s : State} (hb : busy s = false) : engineStep s = .next s :=
  if_neg (by simp [hb])

/-- A busy engine takes the next step of the latched command (R25, R116). -/
theorem engineStep_of_latched {i : Instr} {s : State} (hb : busy s = true)
    (hd : decodeWord s.lastcmd = .ok i) (hi : i ≠ .srst) : engineStep s = exec i s := by
  rw [engineStep, if_pos hb, hd]
  cases i
  case srst => exact absurd rfl hi
  all_goals rfl

/-- With no command latched, only the rows that ask for none are left. -/
theorem engineStep_of_unlatched {s : State} (hb : busy s = true)
    (hl : ∀ i, decodeWord s.lastcmd = .ok i → i = .srst) :
    engineStep s = runningStep none (fun _ => .fault .noTransition) s := by
  rw [engineStep, if_pos hb]
  cases hd : decodeWord s.lastcmd with
  | error e => rfl
  | ok i => rw [hl i hd]

/-- A round on the two halves: the lower half moves up, and the upper one is masked by `F` (R92). -/
theorem feistelRound_eq (k : Subkey) (n : BitVec 5) (s : State) : feistelRound k n s = { s with
    l := s.r, r := s.l ^^^ mangler s.r k, round := n, fsm := .round } := by
  simp [feistelRound, setBlock, roundF]

theorem swapStep_eq (s : State) : swapStep s = { s with l := s.r, r := s.l, fsm := .swapped } := by
  simp [swapStep, setBlock, swapHalves]

/-! ### Steps that do not look at DIN (R117) -/

/-- Another value of DIN does not change what `f` does in `s`: the answer is the same but for DIN itself,
which it carries over. -/
def IgnoresDin (f : State → Result) (s : State) : Prop :=
  ∀ (t : State) (v : Word), f s = .next t → f { s with din := v } = .next { t with din := v }

theorem ignoresDin_next {g : State → State} {s : State}
    (hg : ∀ v, g { s with din := v } = { g s with din := v }) : IgnoresDin (fun t => .next (g t)) s := by
  intro t v h
  injection h with h
  exact congrArg Host.Outcome.next (h ▸ hg v)

theorem ignoresDin_fault (r : Fault) (s : State) : IgnoresDin (fun _ => .fault r) s := fun _ _ h => nomatch h

theorem finishPrimitive_setDin (ok : Bool) (x : Word) (s : State) (v : Word) :
    finishPrimitive ok x { s with din := v } = { finishPrimitive ok x s with din := v } := by
  cases ok
  · rw [finishPrimitive_false, finishPrimitive_false]; rfl
  · rfl

theorem ignoresDin_withSubkeys {use : State → Result} {s : State} (hu : IgnoresDin use s) :
    IgnoresDin (withSubkeys use) s := by
  intro t v h
  unfold withSubkeys at h ⊢
  split at h
  next hk => exact (if_pos hk).trans (hu t v h)
  next hk => injection h with h; subst h; exact if_neg hk

/-- Only the INITIALIZED row reads DIN: any other row is taken with every value of it. -/
theorem RunCase.setDin {ksel : Option (State → RoundIx → Subkey)} {f : State → Result} {s t : State}
    (hs : s.fsm ≠ .initialized) (hk : ∀ sel ∈ ksel, ∀ v, sel { s with din := v } = sel s)
    (hf : IgnoresDin f s) (v : Word) (h : RunCase ksel f s t) :
    RunCase ksel f { s with din := v } { t with din := v } := by
  cases h with
  | initialized h => exact absurd h hs
  | derive h hkv => exact .derive h hkv
  | firstRound sel h hkv hsel =>
    have row := RunCase.firstRound (f := f) (s := { s with din := v }) sel h hkv hsel
    rwa [hk sel hsel v] at row
  | nextRound sel h hr hsel =>
    have row := RunCase.nextRound (f := f) (s := { s with din := v }) sel h hr hsel
    rwa [hk sel hsel v] at row
  | swap h hr => exact .swap h hr
  | swapped h => exact .swapped h
  | derivation h hkc => exact RunCase.derivation (s := { s with din := v }) h hkc
  | derivationEnd h hkc => exact .derivationEnd h hkc
  | exec _ h hft => exact .exec _ h (hf t v hft)
  | quiet h => exact .quiet h

theorem ignoresDin_runningStep {ksel : Option (State → RoundIx → Subkey)} {f : State → Result} {s : State}
    (hs : s.fsm ≠ .initialized) (hk : ∀ sel ∈ ksel, ∀ v, sel { s with din := v } = sel s)
    (hf : IgnoresDin f s) : IgnoresDin (runningStep ksel f) s :=
  fun _ v h => runningStep_of_case ((runningStep_case h).setDin hs hk hf v)

section
variable {s : State} (hb : busy s = true) (hs : s.fsm ≠ .initialized)
include hb hs

theorem ignoresDin_commandStep {i : Instr} {ksel : Option (State → RoundIx → Subkey)} {f : State → Result}
    (hk : ∀ sel ∈ ksel, ∀ v, sel { s with din := v } = sel s) (hf : IgnoresDin f s) :
    IgnoresDin (commandStep i ksel f) s :=
  fun t v h => (if_pos hb).trans (ignoresDin_runningStep hs hk hf t v ((if_pos hb).symm.trans h))

/-- A command without a subkey choice ignores DIN when its EXEC step does. -/
theorem ignoresDin_primitive {i : Instr} {f : State → Result} (hf : IgnoresDin f s) :
    IgnoresDin (commandStep i none f) s :=
  ignoresDin_commandStep hb hs (by simp) hf

/-- In every FSM state but INITIALIZED a running command's step ignores DIN, whatever the command: the rows of
the controller do, and so does each EXEC step. -/
theorem ignoresDin_exec {i : Instr} (hi : i ≠ .srst) : IgnoresDin (exec i) s := by
  cases i
  case srst => exact absurd rfl hi
  case enc | dec => exact ignoresDin_commandStep hb hs (by rintro _ ⟨⟩ v; rfl) (ignoresDin_fault _ s)
  case nop => exact ignoresDin_primitive hb hs (ignoresDin_next fun _ => rfl)
  case ksd => exact ignoresDin_primitive hb hs (ignoresDin_withSubkeys (ignoresDin_next fun _ => rfl))
  case split =>
    exact ignoresDin_primitive hb hs (ignoresDin_next fun v => finishPrimitive_setDin _ _ { s with resb := _ } v)
  case ksrot rnd =>
    apply ignoresDin_primitive hb hs
    cases roundIx rnd with
    | none => exact ignoresDin_fault _ s
    | some r => exact ignoresDin_next fun v => finishPrimitive_setDin _ _ s v
  case rnds rnd | skrd rnd =>
    apply ignoresDin_primitive hb hs
    apply ignoresDin_withSubkeys
    cases roundIx rnd with
    | none => exact ignoresDin_fault _ s
    | some r => exact ignoresDin_next fun v => finishPrimitive_setDin _ _ s v
  all_goals exact ignoresDin_primitive hb hs (ignoresDin_next fun v => finishPrimitive_setDin _ _ s v)

end

/-- In every FSM state but INITIALIZED the engine's step ignores DIN (R117). -/
theorem ignoresDin_engineStep {s : State} (hs : s.fsm ≠ .initialized) : IgnoresDin engineStep s := by
  intro t v h
  cases hb : busy s
  case false =>
    rw [engineStep_of_not_busy hb] at h
    injection h with h
    exact h ▸ engineStep_of_not_busy (s := { s with din := v }) hb
  case true =>
    by_cases hl : ∃ i, decodeWord s.lastcmd = .ok i ∧ i ≠ .srst
    · obtain ⟨i, hd, hi⟩ := hl
      rw [engineStep_of_latched hb hd hi] at h
      exact (engineStep_of_latched (s := { s with din := v }) hb hd hi).trans (ignoresDin_exec hb hs hi t v h)
    · have hnone : ∀ i, decodeWord s.lastcmd = .ok i → i = .srst := by simpa using hl
      rw [engineStep_of_unlatched hb hnone] at h
      exact (engineStep_of_unlatched (s := { s with din := v }) hb hnone).trans
        (ignoresDin_runningStep hs (by simp) (ignoresDin_fault _ s) t v h)

/-! ### The obligations -/

/-- Settles O6: the command is accepted, and acceptance is four fields. -/
theorem acceptanceLatchesAndChangesNothingElse : Obligations.AcceptanceLatchesAndChangesNothingElse := by
  intro i s hwf hi hb
  rw [exec_eq_accept hi hwf hb, accept_encode]

/-- Settles O16: `softReset` is the reset state but for CONFIG, and the write of its one word performs it. -/
theorem softResetKeepsOnlyConfig : Obligations.SoftResetKeepsOnlyConfig := by
  refine ⟨exec_srst, ?write, ?word⟩
  case write =>
    intro s rest hi
    exact (step_writeCmd hi).trans (commandWrite_srst _)
  case word =>
    intro v
    exact ⟨eq_srstWord_of_decode, by rintro rfl; rfl⟩

/-- Settles O17: NOP is an accepted command whose EXEC step is `complete`, and its word is not SRST. -/
theorem nopCommand : Obligations.NopCommand := by
  refine ⟨rfl, ?accepted, ?busy, ?exec⟩
  case accepted =>
    intro s hb
    rw [exec_eq_accept (by simp) rfl hb, accept_encode]
    rfl
  case busy =>
    intro s rest hi hb
    exact (step_writeCmd hi).trans (commandWrite_of_busy (by decide) ((busy_congr rfl).trans hb))
  case exec =>
    intro s hs
    exact commandStep_of_exec hs

/-- Settles O36: the INITIALIZED row is `initializedStep`, and no other row and no EXEC step reads DIN. -/
theorem initializedStepPermutesDin : Obligations.InitializedStepPermutesDin := by
  refine ⟨?permutes, ?others⟩
  case permutes =>
    intro s i hi hs
    exact exec_cipher_of_runCase hi (by simp [busy, hs]) (.initialized hs)
  case others =>
    intro s t v hs h
    exact ignoresDin_engineStep hs t v h

/-- Settles O37: the two rows of PERMUTED, with the subkey choice of each command. -/
theorem permutedStepDerivesOrDoesRoundOne : Obligations.PermutedStepDerivesOrDoesRoundOne := by
  refine ⟨?derives, ?roundOne⟩
  case derives =>
    intro s i hi hs hkv
    exact exec_cipher_of_runCase hi (by simp [busy, hs]) (.derive hs hkv)
  case roundOne =>
    intro s hs hkv
    have hb : busy s = true := by simp [busy, hs]
    have henc := exec_cipher_of_runCase (.inl rfl) hb (.firstRound kselEnc hs hkv rfl)
    have hdec := exec_cipher_of_runCase (.inr rfl) hb (.firstRound kselDec hs hkv rfl)
    rw [feistelRound_eq] at henc hdec
    exact ⟨henc, hdec⟩

/-- Settles O39: the row of ROUND = 16 only swaps, and the SWAPPED row only permutes into DOUT and
completes. -/
theorem swapComesBeforeTheInversePermutation : Obligations.SwapComesBeforeTheInversePermutation := by
  intro s i hi
  refine ⟨?swaps, ?permutes⟩
  case swaps =>
    intro hs hr
    rw [exec_cipher_of_runCase hi (by simp [busy, hs]) (.swap hs hr), swapStep_eq]
  case permutes =>
    intro hs
    exact exec_cipher_of_runCase hi (by simp [busy, hs]) (.swapped hs)

end Sys2Proof.Machine
end

section
/-! PROOFS. The error record and the order of checks on a CMD write (spec/60_exceptions.md R132, R135, R137).
First what a word that decodes looks like; then the four outcomes of a CMD write; then what keeps a recorded
error and what clears it; then the obligations. -/

namespace Sys2Proof

/-! ### What a word that decodes looks like (R64, R67, R68) -/

/-- A guarded decoding gives a command when the guard holds and what it guards gives that command. -/
theorem guard_eq_ok {p : Prop} [Decidable p] {e : DecodeError} {x : Except DecodeError Instr} {i : Instr} :
    (if p then x else .error e) = .ok i ↔ p ∧ x = .ok i := by
  by_cases h : p <;> simp [h]

theorem formatC0_eq_ok {rnd : BitVec 5} {i j : Instr} : formatC0 rnd i = .ok j ↔ rnd = 0 ∧ i = j :=
  guard_eq_ok.trans (and_congr_right' (iff_of_eq (Except.ok.injEq ..)))

theorem formatCR_eq_ok {rnd : BitVec 5} {i : BitVec 5 → Instr} {j : Instr} :
    formatCR rnd i = .ok j ↔ roundInRange rnd = true ∧ i rnd = j :=
  guard_eq_ok.trans (and_congr_right' (iff_of_eq (Except.ok.injEq ..)))

/-- Every row of the map gives a well-formed command with the opcode and the round field it was read from. -/
theorem fields_of_decodeFields {opc : Nat} {rnd : BitVec 5} {i : Instr} (h : decodeFields opc rnd = .ok i) :
    i.wf = true ∧ (opcode i).toNat = opc ∧ rndField i = rnd := by
  unfold decodeFields at h
  split at h
  case h_17 | h_19 | h_21 =>
    obtain ⟨hr, rfl⟩ := formatCR_eq_ok.1 h
    exact ⟨hr, rfl, rfl⟩
  case h_22 => cases h
  all_goals
    obtain ⟨rfl, rfl⟩ := formatC0_eq_ok.1 h
    exact ⟨rfl, rfl, rfl⟩

/-- A word that decodes is the encoding of the well-formed command it decodes to: its three fields are. -/
theorem wf_and_encode_of_decodeWord {v : Word} {i : Instr} (h : decodeWord v = .ok i) :
    i.wf = true ∧ encode i = v := by
  obtain ⟨hrsv, h⟩ := guard_eq_ok.1 h
  obtain ⟨hwf, hopc, hrnd⟩ := fields_of_decodeFields h
  have hv := fields_append v
  rw [hrsv, ← hrnd, ← BitVec.eq_of_toNat_eq hopc] at hv
  exact ⟨hwf, hv⟩

/-- `legal`, as R68 writes it, holds of exactly the words that decode. -/
theorem legal_iff_decodes (v : Word) : legal v = true ↔ ∃ i, decodeWord v = .ok i := by
  rw [legalWordsAreTheOnesThatDecode v]
  simp only [legal, Bool.and_eq_true, Bool.or_eq_true, decide_eq_true_eq,
    apply_ite (· = true), and_assoc, or_assoc]
  rfl

namespace Machine

/-! ### The outcomes of a CMD write to an engine that is not busy (R115, R135, R137) -/

/-- An accepted command runs: acceptance enters INITIALIZED or EXEC (R115). -/
theorem busy_accept (v : Word) (s : State) : busy (accept v s) = true := by
  rw [busy_eq_true, accept_fsm]
  split <;> simp

section
variable {v : Word} {s : State} (hv : v ≠ srstWord) (hb : busy s = false)
include hv hb

/-- An illegal word is dropped with IllegalCommand, unless an error stands already (R132, R135). -/
theorem commandWrite_of_illegal (hl : legal v = false) :
    commandWrite v s = .next { s with err := true, ecode := if s.err then s.ecode else 2 } := by
  rw [commandWrite, if_neg hv, if_neg (by simp [hb])]
  cases hd : decodeWord v with
  | error e => exact congrArg Host.Outcome.next (raiseError_eq .illegalCommand s)
  | ok i => simp [(legal_iff_decodes v).2 ⟨i, hd⟩] at hl

/-- A legal word is accepted as it stands: it is the encoding of the command it decodes to. -/
theorem commandWrite_of_legal (hl : legal v = true) : commandWrite v s = .next (accept v s) := by
  obtain ⟨i, hd⟩ := (legal_iff_decodes v).1 hl
  obtain ⟨hwf, henc⟩ := wf_and_encode_of_decodeWord hd
  have hi : i ≠ .srst := fun e => hv (eq_srstWord_of_decode (e ▸ hd))
  rw [commandWrite, if_neg hv, if_neg (by simp [hb]), hd]
  exact (exec_eq_accept hi hwf hb).trans (by rw [henc])

end

/-! ### What keeps a recorded error (R132) -/

/-- An error stands in `t`, with the code it has in `s`. -/
def ErrorKept (s t : State) : Prop := t.err = true ∧ t.ecode = s.ecode

theorem errorKept_raiseError (e : EngineError) {s : State} (he : s.err = true) :
    ErrorKept s (raiseError e s) := by
  rw [raiseError_of_set e he]
  exact ⟨he, rfl⟩

theorem errorKept_accept (v : Word) {s : State} (he : s.err = true) : ErrorKept s (accept v s) :=
  ⟨(accept_err v s).trans he, accept_ecode v s⟩

theorem errorKept_issue (i : Instr) {s : State} (he : s.err = true) : ErrorKept s (issue i s) := by
  unfold issue
  split
  · exact errorKept_accept _ he
  · exact errorKept_raiseError _ he

/-- The controller's rows touch neither ERR nor ECODE. -/
theorem errorKept_runCase {k f} {s t : State} (hf : ∀ u, f s ≠ .next u) (he : s.err = true)
    (h : RunCase k f s t) : ErrorKept s t := by
  cases h
  case exec _ h => exact absurd h (hf t)
  all_goals exact ⟨he, rfl⟩

/-- Of the EXEC steps only a failed width check raises, and `raise` keeps the first error. -/
theorem errorKept_execCase {i : Instr} {s t : State} (he : s.err = true) (h : ExecCase i s t) :
    ErrorKept s t := by
  cases h
  case violation => simp [ErrorKept, he]
  all_goals exact ⟨he, rfl⟩

theorem errorKept_engineCase {s t : State} (he : s.err = true) (h : EngineCase s t) : ErrorKept s t := by
  cases h with
  | quiet => exact ⟨he, rfl⟩
  | control i t hb hl hi hx h => exact errorKept_runCase (by simp) he h
  | exec i t hl hi hc hd hx h => exact errorKept_execCase he h
  | unlatched t hb hl h => exact errorKept_runCase (by simp) he h

/-! ### What clears it (R52, R129, R132) -/

/-- The inputs that clear ERR and ECODE: SRST, the reset input, and a write to STATUS with bit 3. -/
def ClearsError (inp : Input) : Prop :=
  abandons inp ∨ ∃ v, inp = .write 0x10 8 v ∧ v.getLsbD 3 = true

theorem errorKept_writeStatus {v : Word} {s : State} (hv : v.getLsbD 3 = false) (he : s.err = true) :
    ErrorKept s (writeStatus v s) := by
  rw [← Bool.not_eq_true] at hv
  exact ⟨by rw [writeStatus_err, if_neg hv, he], by rw [writeStatus_ecode, if_neg hv]⟩

/-- A write keeps the error unless it is the word of SRST to CMD or has bit 3 and goes to STATUS. -/
theorem errorKept_or_clearsError {off : Offset} {v : Word} {s t : State} (he : s.err = true)
    (h : WriteCase off v s t) : ErrorKept s t ∨ ClearsError (.write off 8 v) := by
  cases h with
  | srst ho hv => exact .inr (.inl ⟨ho, rfl, hv⟩)
  | status ho =>
    cases hv : v.getLsbD 3
    case false => exact .inl (errorKept_writeStatus hv he)
    case true => exact .inr (.inr ⟨v, by rw [ho], hv⟩)
  | cmdBusy | cmdIllegal | operandBusy => exact .inl (errorKept_raiseError _ he)
  | cmdIssued i => exact .inl (errorKept_issue i he)
  | config | key | din | opa | opb | ignored => exact .inl ⟨he, rfl⟩

/-- A step of the machine keeps a recorded error, or takes an input that clears it. -/
theorem step_errorKept_or_clearsError {s t : State} (he : s.err = true) (h : step s = .next t) :
    ErrorKept s t ∨ ∃ inp rest, s.inputs = inp :: rest ∧ ClearsError inp := by
  cases step_case h with
  | engine _ hi h => exact .inl (errorKept_engineCase he h)
  | turn rest _ hi h => exact .inl (errorKept_engineCase (s := { s with inputs := rest }) he h)
  | write off v rest _ hi hl h =>
    exact (errorKept_or_clearsError (s := { s with inputs := rest }) he h).imp_right
      fun hc => ⟨_, rest, hi, hc⟩
  | read | waited => exact .inl ⟨he, rfl⟩
  | reset rest hi => exact .inr ⟨_, rest, hi, .inl trivial⟩

/-- Each of the clearing inputs does clear both fields, from any state. -/
theorem step_of_clearsError {s : State} {inp : Input} {rest : List Input} (hi : s.inputs = inp :: rest)
    (hc : ClearsError inp) : ∃ t, step s = .next t ∧ t.err = false ∧ t.ecode = 0 := by
  obtain ha | ⟨v, rfl, hv⟩ := hc
  case inr =>
    exact ⟨_, step_writeStatus hi, by rw [writeStatus_err, if_pos hv], by rw [writeStatus_ecode, if_pos hv]⟩
  case inl =>
    cases inp with
    | write off size v =>
      obtain ⟨rfl, rfl, rfl⟩ := ha
      exact ⟨_, (step_writeCmd hi).trans (commandWrite_srst _), rfl, rfl⟩
    | reset => exact ⟨_, step_reset hi, rfl, rfl⟩
    | read | wait | engine => exact ha.elim

/-! ### The obligations -/

/-- Settles O8: every step keeps the first error but those that take a clearing input, and acceptance does
not look at ERR. -/
theorem firstErrorStaysUntilCleared : Obligations.FirstErrorStaysUntilCleared := by
  refine ⟨?raise, ?stays, ?clears, ?accepts, rfl, rfl, rfl⟩
  case raise =>
    intro e s
    exact ⟨raiseError_of_clear e, raiseError_of_set e⟩
  case stays =>
    intro s t h he
    obtain ⟨herr, hcode⟩ | ⟨inp, rest, hi, hc⟩ := step_errorKept_or_clearsError he h
    · exact ⟨fun _ => hcode, fun hn => by simp [herr] at hn⟩
    · obtain ⟨t', ht, hn, -⟩ := step_of_clearsError hi hc
      obtain rfl : t = t' := Host.Outcome.next.inj (h.symm.trans ht)
      exact ⟨fun herr => by simp [herr] at hn, fun _ => ⟨inp, rest, hi, hc⟩⟩
  case clears =>
    intro s inp rest hi hc
    exact step_of_clearsError hi hc
  case accepts =>
    intro i s hwf hi hb he
    obtain ⟨herr, hcode⟩ := errorKept_accept (encode i) he
    exact ⟨_, exec_eq_accept hi hwf hb, busy_accept _ s, accept_lastcmd _ s, herr, hcode⟩

/-- Settles O7: one lemma about `commandWrite` for each outcome, along the order of R137. -/
theorem commandWriteIsResolvedInOrder : Obligations.CommandWriteIsResolvedInOrder := by
  intro s v rest hi
  have hbusy : busy { s with inputs := rest } = busy s := busy_congr rfl
  rw [step_writeCmd hi]
  split
  case isTrue hv => subst hv; exact commandWrite_srst _
  case isFalse hv =>
    split
    case isTrue hb => exact commandWrite_of_busy hv (hbusy.trans hb)
    case isFalse hb =>
      replace hb := hbusy.trans (Bool.eq_false_of_not_eq_true hb)
      split
      case isTrue hl => exact commandWrite_of_illegal hv hb hl
      case isFalse hl => exact commandWrite_of_legal hv hb (Bool.eq_true_of_not_eq_false hl)

end Machine

end Sys2Proof
end

section
/-! PROOFS. Encoding and decoding undo each other (spec/30_encoding.md R64, R67, R68). First the row of the
opcode map that each command takes; then the obligations. -/

namespace Sys2Proof

/-! ### The row of the opcode map that a command takes -/

/-- R67: the opcode and the round field of a well-formed command are the row the command stands in. -/
theorem decodeFields_opcode {i : Instr} (hwf : i.wf = true) :
    decodeFields (opcode i).toNat (rndField i) = .ok i := by
  cases i
  case rnds | ksrot | skrd => exact formatCR_eq_ok.2 ⟨hwf, rfl⟩
  all_goals rfl

/-- The three fields of an encoding are those of its command, so decoding reads that command's row. -/
theorem decodeWord_encode {i : Instr} (hwf : i.wf = true) : decodeWord (encode i) = .ok i := by
  rw [decodeWord, if_pos (rsvOf_encode i), opcOf_encode, rndOf_encode]
  exact decodeFields_opcode hwf

/-! ### The obligations -/

/-- Settles O3: field by field, the encoding of a command stands in that command's row of the map. -/
theorem decodeOfEncodeIsTheCommand : Obligations.DecodeOfEncodeIsTheCommand :=
  fun _ hwf => decodeWord_encode hwf

/-- Settles O4: the decoder checks every bit of a word, reserved bits and round field included. -/
theorem encodeOfDecodeIsTheWord : Obligations.EncodeOfDecodeIsTheWord :=
  fun _ _ h => wf_and_encode_of_decodeWord h

/-- Settles O1: every word of the map is the encoding of its command. -/
theorem opcodeMapWordsDecode : Obligations.OpcodeMapWordsDecode := by
  refine ⟨decodeWord_encode (i := .nop) rfl, decodeWord_encode (i := .ksd) rfl,
    decodeWord_encode (i := .enc) rfl, decodeWord_encode (i := .dec) rfl,
    decodeWord_encode (i := .srst) rfl, decodeWord_encode (i := .ip) rfl,
    decodeWord_encode (i := .fp) rfl, decodeWord_encode (i := .split) rfl,
    decodeWord_encode (i := .comb) rfl, decodeWord_encode (i := .exp) rfl,
    decodeWord_encode (i := .xork) rfl, decodeWord_encode (i := .sbox) rfl,
    decodeWord_encode (i := .permp) rfl, decodeWord_encode (i := .swap) rfl,
    decodeWord_encode (i := .ffn) rfl, decodeWord_encode (i := .rndk) rfl,
    decodeWord_encode (i := .pc1) rfl, decodeWord_encode (i := .pc2) rfl, ?_⟩
  intro rnd hlo hhi
  have hr : roundInRange rnd = true := by simp [roundInRange, hlo, hhi]
  exact ⟨decodeWord_encode (i := .rnds rnd) hr, decodeWord_encode (i := .ksrot rnd) hr,
    decodeWord_encode (i := .skrd rnd) hr⟩

end Sys2Proof
end

section
/-! PROOFS. FFN and the commands that use the subkey cache (spec/41_datapath.md R102, R104,
spec/42_key_schedule.md R107, R113, R114) in their EXEC step. First the EXEC steps; then the obligations. -/

namespace Sys2Proof.Machine

/-! ### The EXEC step, and what the cache check does (R107, R123) -/

/-- With KV = 0 a command that uses the cache starts a derivation. -/
theorem withSubkeys_of_not_kv (use : State → Result) {s : State} (hk : s.kv = false) :
    withSubkeys use s = .next (derivationStarted s) := if_neg (by simp [hk])

/-- With KV = 1 it does what it needs the cache for. -/
theorem withSubkeys_of_kv (use : State → Result) {s : State} (hk : s.kv = true) :
    withSubkeys use s = use s := if_pos hk

section
variable {s : State} (hs : s.fsm = .exec)
include hs

theorem exec_ffn_of_exec : exec .ffn s = .next (finishPrimitive (fitsHalf s.opa && fitsSubkey s.opb)
    (zext64 (mangler (lo32 s.opa) (lo48 s.opb))) s) :=
  commandStep_of_exec hs

/-- The three commands that derive in EXEC start the derivation in the same way (R107). -/
theorem exec_derives_of_exec {i : Instr} (hk : s.kv = false)
    (hi : i = .ksd ∨ (∃ rnd, i = .rnds rnd) ∨ (∃ rnd, i = .skrd rnd)) :
    exec i s = .next (derivationStarted s) := by
  obtain rfl | ⟨rnd, rfl⟩ | ⟨rnd, rfl⟩ := hi
  all_goals exact (commandStep_of_exec hs).trans (withSubkeys_of_not_kv _ hk)

theorem exec_ksd_of_exec (hk : s.kv = true) : exec .ksd s = .next (complete s) :=
  (commandStep_of_exec hs).trans (withSubkeys_of_kv _ hk)

theorem exec_rnds_of_exec (hk : s.kv = true) (i : RoundIx) :
    exec (.rnds (BitVec.ofNat 5 (i.val + 1))) s = .next (finishedWith (roundF s.opa s.sk[i]) s) :=
  ((commandStep_of_exec hs).trans (withSubkeys_of_kv _ hk)).trans (by rw [roundIx_ofNat]; rfl)

theorem exec_skrd_of_exec (hk : s.kv = true) (i : RoundIx) :
    exec (.skrd (BitVec.ofNat 5 (i.val + 1))) s = .next (finishedWith (zext64 s.sk[i]) s) :=
  ((commandStep_of_exec hs).trans (withSubkeys_of_kv _ hk)).trans (by rw [roundIx_ofNat]; rfl)

end

/-! ### The obligations -/

/-- Settles O18: KSD does nothing with the cache but see that it is filled. -/
theorem ksdCommand : Obligations.KsdCommand :=
  ⟨rfl, fun _ hs hk => exec_derives_of_exec hs hk (.inl rfl), fun _ hs hk => exec_ksd_of_exec hs hk⟩

/-- Settles O28: FFN's check is that OPA fits in a half and OPB in 48 bits. -/
theorem ffnCommand : Obligations.FfnCommand := by
  refine ⟨rfl, ?fits, ?tooWide, by decide +kernel⟩
  case fits =>
    intro s hs ha hb
    exact eq_finishedWith (exec_ffn_of_exec hs) (by simp [fitsHalf_eq_true.2 ha, fitsSubkey_eq_true.2 hb])
  case tooWide =>
    intro s hs h
    exact eq_endedInWidthViolation (exec_ffn_of_exec hs)
      (Bool.and_eq_false_iff.2 (h.imp fitsHalf_eq_false.2 fitsSubkey_eq_false.2))

/-- Settles O30: RNDS reads the cache in EXEC, and a round index out of range is never accepted. -/
theorem rndsCommand : Obligations.RndsCommand :=
  ⟨fun _ i hs hk => exec_rnds_of_exec hs hk i,
    fun _ rnd hs hk => exec_derives_of_exec hs hk (.inr (.inl ⟨rnd, rfl⟩)),
    fun _ _ hr hb => exec_eq_illegalCommand (by simp) hr hb⟩

/-- Settles O34: SKRD reads the cache in EXEC, and a round index out of range is never accepted. -/
theorem skrdCommand : Obligations.SkrdCommand :=
  ⟨fun _ i hs hk => exec_skrd_of_exec hs hk i,
    fun _ rnd hs hk => exec_derives_of_exec hs hk (.inr (.inr ⟨rnd, rfl⟩)),
    fun _ _ hr hb => exec_eq_illegalCommand (by simp) hr hb⟩

end Sys2Proof.Machine
end

section
/-! PROOFS. The controller's table under every command (spec/43_controller.md R116 to R122,
spec/42_key_schedule.md R108, R109; log entry 9). First the rows as equations of `exec`; then the combinations
without a row; then the obligations. -/

namespace Sys2Proof.Machine

/-! ### The rows (R116) -/

/-- In a controller state that is busy and not EXEC, a command takes the row its state selects. -/
theorem exec_of_runCase {i : Instr} {s t : State} {f : Fsm} (hi : i ≠ .srst) (hs : s.fsm = f)
    (hf : f ≠ .idle ∧ f ≠ .finalized ∧ f ≠ .exec)
    (h : RunCase (kselOf i) (fun _ => .fault .noTransition) s t) : exec i s = .next t := by
  subst hs
  obtain ⟨hidle, hfin, hexec⟩ := hf
  rw [exec_of_running _ hi ((busy_eq_true s).2 ⟨hidle, hfin⟩) hexec]
  exact runningStep_of_case h

/-- A ROUND step below 16 does the next round with the command's own subkey (R118, R120). -/
theorem exec_feistelRound {i : Instr} {s : State} {n : RoundIx} {sel : State → RoundIx → Subkey}
    (hsel : kselOf i = some sel) (hs : s.fsm = .round) (hr : s.round = BitVec.ofNat 5 n.val) :
    exec i s = .next (feistelRound (sel s n) (BitVec.ofNat 5 (n.val + 1)) s) := by
  have hval : s.round.toNat = n.val := by
    rw [hr, BitVec.toNat_ofNat]
    omega
  have hlt : s.round.toNat < 16 := hval ▸ n.isLt
  have hix : (⟨s.round.toNat, hlt⟩ : RoundIx) = n := Fin.ext hval
  have hsucc : s.round + 1 = BitVec.ofNat 5 (n.val + 1) := by rw [hr, BitVec.ofNat_add]; rfl
  rw [← hsucc, ← hix]
  exact exec_of_runCase (by rintro rfl; cases hsel) hs (by decide) (.nextRound sel hs hlt hsel)

/-- The next round of ENC and of DEC, ROUND = 0 included (R120, log entry 9). -/
theorem exec_nextRound {s : State} {i : RoundIx} (hs : s.fsm = .round) (hr : s.round = BitVec.ofNat 5 i.val) :
    exec .enc s = .next { s with
      l := s.r, r := s.l ^^^ mangler s.r s.sk[i], round := BitVec.ofNat 5 (i.val + 1) } ∧
    exec .dec s = .next { s with
      l := s.r, r := s.l ^^^ mangler s.r s.sk[i.rev], round := BitVec.ofNat 5 (i.val + 1) } := by
  have row : ∀ c sel, kselOf c = some sel → exec c s = .next { s with
      l := s.r, r := s.l ^^^ mangler s.r (sel s i), round := BitVec.ofNat 5 (i.val + 1) } := by
    intro c sel hsel
    rw [exec_feistelRound hsel hs hr, feistelRound_eq, ← hs]
  exact ⟨row .enc kselEnc rfl, row .dec kselDec rfl⟩

/-- The derivation row does not ask for the command (R108). -/
theorem exec_derivation {i : Instr} {s : State} {k : RoundIx} (hi : i ≠ .srst)
    (hs : s.fsm = .ksPc1 ∨ s.fsm = .ksRot) (hk : s.kscnt = BitVec.ofNat 5 k.val) :
    exec i s = .next (derivationStep k s) := by
  have hval : s.kscnt.toNat = k.val := by
    rw [hk, BitVec.toNat_ofNat]
    omega
  have hlt : s.kscnt.toNat < 16 := hval ▸ k.isLt
  have hix : (⟨s.kscnt.toNat, hlt⟩ : RoundIx) = k := Fin.ext hval
  rw [← hix]
  obtain h | h := hs
  all_goals exact exec_of_runCase hi h (by decide) (.derivation (by simp [h]) hlt)

/-- A derivation step, field by field (R108). -/
theorem derivationStep_eq (k : RoundIx) (s : State) : derivationStep k s = { s with
    c := s.c.rotateLeft (shift k)
    d := s.d.rotateLeft (shift k)
    sk := s.sk.set k.val (pc2F (s.c.rotateLeft (shift k) ++ s.d.rotateLeft (shift k))) k.isLt
    kscnt := BitVec.ofNat 5 (k.val + 1)
    fsm := .ksRot
    kv := if k.val + 1 = 16 then true else s.kv } := by
  simp [derivationStep, setHalves, rotateHalves, rotl28]

/-- The end of a derivation returns to the command (R109). -/
theorem exec_derivationEnd {i : Instr} {s : State} (hi : i ≠ .srst) (hs : s.fsm = .ksRot) (hk : s.kscnt = 16) :
    exec i s = .next { s with fsm := if i = .enc ∨ i = .dec then .permuted else .exec } := by
  rw [exec_of_runCase hi hs (by decide) (.derivationEnd hs hk)]
  simp only [endDerivation, kselOf_isSome]

theorem kselOf_eq_none {i : Instr} (hc : i ≠ .enc) (hd : i ≠ .dec) : kselOf i = none := by
  rw [← Option.not_isSome_iff_eq_none, kselOf_isSome]
  exact not_or.2 ⟨hc, hd⟩

/-! ### Combinations without a row (log entry 9) -/

/-- A counter out of its range is stuck. -/
theorem runningStep_counter_stuck {k f} {s : State}
    (h : (s.fsm = .round ∧ 16 < s.round.toNat) ∨ (s.fsm = .ksPc1 ∧ 16 ≤ s.kscnt.toNat) ∨
      (s.fsm = .ksRot ∧ 16 < s.kscnt.toNat)) : runningStep k f s = .fault .noTransition := by
  have above : ∀ x : BitVec 5, 16 < x.toNat → ¬ x.toNat < 16 ∧ x ≠ 16#5 := by
    intro x hx
    exact ⟨by omega, by rintro rfl; exact absurd hx (by decide)⟩
  unfold runningStep
  obtain ⟨hs, hr⟩ | ⟨hs, hk⟩ | ⟨hs, hk⟩ := h
  · obtain ⟨hlt, hne⟩ := above _ hr
    simp [hs, hlt, hne]
  · simp [hs, Nat.not_lt.2 hk]
  · obtain ⟨hlt, hne⟩ := above _ hk
    simp [hs, hlt, hne]

/-- A round without a subkey choice is stuck (R118). -/
theorem runningStep_round_stuck {f} {s : State}
    (h : (s.fsm = .permuted ∧ s.kv = true) ∨ (s.fsm = .round ∧ s.round.toNat < 16)) :
    runningStep none f s = .fault .noTransition := by
  unfold runningStep
  obtain ⟨hs, hk⟩ | ⟨hs, hr⟩ := h
  · simp [hs, hk]
  · simp [hs, hr]

/-- A round index out of range has no EXEC step that uses it (R65). -/
theorem exec_roundIndex_stuck {s : State} {rnd : BitVec 5} (hr : roundInRange rnd = false)
    (hs : s.fsm = .exec) : exec (.ksrot rnd) s = .fault .noTransition ∧
      (s.kv = true →
        exec (.rnds rnd) s = .fault .noTransition ∧ exec (.skrd rnd) s = .fault .noTransition) := by
  have hnone := roundIx_eq_none rnd hr
  refine ⟨(commandStep_of_exec hs).trans (by rw [hnone]), fun hk => ⟨?_, ?_⟩⟩
  all_goals exact ((commandStep_of_exec hs).trans (withSubkeys_of_kv _ hk)).trans (by rw [hnone])

/-! ### The obligations -/

/-- Settles O38: the row of ROUND below 16, with the subkey choice of each command. -/
theorem roundStepDoesTheNextRound : Obligations.RoundStepDoesTheNextRound :=
  fun _ _ _ hs hr => exec_nextRound hs hr

/-- Settles O40: the row of the derivation does not ask for the command. -/
theorem derivationStepMakesOneSubkey : Obligations.DerivationStepMakesOneSubkey := by
  intro s i k hi hs hk
  have hne : i ≠ .srst := by
    rintro rfl
    simp at hi
  rw [exec_derivation hne hs hk, derivationStep_eq]

/-- Settles O41: the row that ends the derivation asks only whether the command is ENC or DEC. -/
theorem derivationEndReturnsToTheCommand : Obligations.DerivationEndReturnsToTheCommand := by
  intro s i hs hk
  refine ⟨fun hi => ?cipher, fun hi => ?others⟩
  case cipher =>
    rw [exec_derivationEnd (by rintro rfl; simp at hi) hs hk, if_pos hi]
  case others =>
    rw [exec_derivationEnd (by rintro rfl; simp at hi) hs hk, if_neg (by rintro (rfl | rfl) <;> simp at hi)]

/-- Settles O49: the rows that do not ask for the command are taken under every command, and each remaining
combination is one of the stuck ones. -/
theorem statesOutsideTheInvariantFollowTheTable : Obligations.StatesOutsideTheInvariantFollowTheTable := by
  refine ⟨?roundIndex, ?cipherInExec, ?counters, ?roundZero, ?others, ?unlatched⟩
  case roundIndex =>
    intro s rnd hr hs
    exact exec_roundIndex_stuck hr hs
  case cipherInExec =>
    rintro s i (rfl | rfl) hs
    all_goals exact commandStep_of_exec hs
  case counters =>
    intro s i hi h
    have hfsm : s.fsm ≠ .idle ∧ s.fsm ≠ .finalized ∧ s.fsm ≠ .exec := by
      obtain ⟨hs, -⟩ | ⟨hs, -⟩ | ⟨hs, -⟩ := h <;> simp [hs]
    obtain ⟨hidle, hfin, hexec⟩ := hfsm
    rw [exec_of_running (fun _ => .fault .noTransition) hi ((busy_eq_true s).2 ⟨hidle, hfin⟩) hexec]
    exact runningStep_counter_stuck h
  case roundZero =>
    intro s hs hr
    exact exec_nextRound (i := 0) hs hr
  case others =>
    intro s i hc hd hi
    have hnone := kselOf_eq_none hc hd
    have stuck : s.fsm ≠ .exec → busy s = true →
        runningStep none (fun _ => .fault .noTransition) s = .fault .noTransition →
        exec i s = .fault .noTransition := by
      intro he hb h
      rw [exec_of_running _ hi hb he, hnone, h]
    refine ⟨?initialized, ?derive, ?noSubkey, ?noRound, ?swap, ?swapped, ?derivation, ?derivationEnd⟩
    case initialized => intro hs; exact exec_of_runCase hi hs (by decide) (.initialized hs)
    case derive => intro hs hk; exact exec_of_runCase hi hs (by decide) (.derive hs hk)
    case noSubkey =>
      intro hs hk
      exact stuck (by simp [hs]) (by simp [busy, hs]) (runningStep_round_stuck (.inl ⟨hs, hk⟩))
    case noRound =>
      intro hs hr
      exact stuck (by simp [hs]) (by simp [busy, hs]) (runningStep_round_stuck (.inr ⟨hs, hr⟩))
    case swap => intro hs hr; rw [exec_of_runCase hi hs (by decide) (.swap hs hr), swapStep_eq]
    case swapped => intro hs; exact exec_of_runCase hi hs (by decide) (.swapped hs)
    case derivation => intro k hs hk; rw [exec_derivation hi hs hk, derivationStep_eq]
    case derivationEnd => intro hs hk; rw [exec_derivationEnd hi hs hk, if_neg (by simp [hc, hd])]
  case unlatched =>
    intro s hb hl
    rw [engineStep_of_unlatched hb hl]
    refine ⟨?inExec, ?elsewhere⟩
    case inExec => intro hs; simp [runningStep, hs]
    case elsewhere => intro hs; exact (exec_of_running (i := .nop) _ (by simp) hb hs).symm

end Sys2Proof.Machine
end

section
/-! PROOFS. Who may change what (spec/10_state.md R25, R32, R34, 60_exceptions.md R133,
70_reset_and_hazards.md R147). First the next states an engine step can have, in one list, and what each field
becomes in them; then the same for a host write; then the obligations. -/

namespace Sys2Proof.Machine

/-! ### The next states of an engine step (R116, R123) -/

/-- The next states of an engine step, whichever command is latched, with the guards that the claims about
single fields need. -/
inductive EngineRow (s : State) : State → Prop
  | quiet : EngineRow s s
  | initialized : EngineRow s (initializedStep s)
  | derive : EngineRow s (startDerivation s)
  | round (k : Subkey) (n : BitVec 5) : EngineRow s (feistelRound k n s)
  | swap : EngineRow s (swapStep s)
  | swapped (hs : s.fsm = .swapped) : EngineRow s (swappedStep s)
  | derivation (hs : s.fsm = .ksPc1 ∨ s.fsm = .ksRot) (hk : s.kscnt.toNat < 16) :
      EngineRow s (derivationStep ⟨s.kscnt.toNat, hk⟩ s)
  | derivationEnd (cipher : Bool) : EngineRow s (endDerivation cipher s)
  | done : EngineRow s (complete s)
  | result (v vb : Word) : EngineRow s (finishPrimitive true v { s with resb := vb })
  | violation (hs : s.fsm = .exec) : EngineRow s (finishPrimitive false 0 s)

theorem engineRow_of_runCase {k f} {s t : State} (hf : ∀ u, f s ≠ .next u) (h : RunCase k f s t) :
    EngineRow s t := by
  cases h with
  | initialized => exact .initialized
  | derive => exact .derive
  | firstRound | nextRound => exact .round _ _
  | swap => exact .swap
  | swapped hs => exact .swapped hs
  | derivation hs hk => exact .derivation hs hk
  | derivationEnd => exact .derivationEnd _
  | exec _ _ h => exact absurd h (hf t)
  | quiet => exact .quiet

theorem engineRow_of_execCase {i : Instr} {s t : State} (hs : s.fsm = .exec) (h : ExecCase i s t) :
    EngineRow s t := by
  cases h with
  | derive => exact .derive
  | done => exact .done
  | result v vb => exact .result v vb
  | violation => exact .violation hs

theorem engineRow_of_engineCase {s t : State} (h : EngineCase s t) : EngineRow s t := by
  cases h with
  | quiet => exact .quiet
  | control _ _ _ _ _ _ h => exact engineRow_of_runCase (by simp) h
  | exec _ _ _ _ _ _ hs h => exact engineRow_of_execCase hs h
  | unlatched _ _ _ h => exact engineRow_of_runCase (by simp) h

/-- The operands and the latched command: what R147 protects while the engine is busy. -/
def SameOperands (s t : State) : Prop :=
  t.key = s.key ∧ t.din = s.din ∧ t.opa = s.opa ∧ t.opb = s.opb ∧ t.lastcmd = s.lastcmd

theorem EngineRow.sameOperands {s t : State} (h : EngineRow s t) : SameOperands s t := by
  cases h <;> simp [SameOperands]

/-- Only the derivation step writes the subkey file, and only the entry of its own round (R108). -/
theorem EngineRow.sk {s t : State} (h : EngineRow s t) (i : RoundIx) : t.sk[i] = s.sk[i] ∨
    ((s.fsm = .ksPc1 ∨ s.fsm = .ksRot) ∧ s.kscnt.toNat = i.val) := by
  cases h
  case derivation hs hk =>
    by_cases hi : s.kscnt.toNat = i.val
    · exact .inr ⟨hs, hi⟩
    · exact .inl (Vector.getElem_set_ne hk i.isLt hi)
  all_goals exact .inl (by simp)

/-- Only the derivation step with KSCNT = 15 writes KV, and it sets it (R107, R108). -/
theorem EngineRow.kv {s t : State} (h : EngineRow s t) : t.kv = s.kv ∨
    (t.kv = true ∧ (s.fsm = .ksPc1 ∨ s.fsm = .ksRot) ∧ s.kscnt.toNat = 15) := by
  cases h
  case derivation hs hk =>
    rw [derivationStep_kv]
    split
    case isTrue hlast => exact .inr ⟨rfl, hs, Nat.succ.inj hlast⟩
    case isFalse => exact .inl rfl
  all_goals exact .inl (by simp)

theorem EngineRow.kv_stays {s t : State} (h : EngineRow s t) (hs : s.kv = true) : t.kv = true := by
  obtain hkv | ⟨hkv, -⟩ := h.kv
  exacts [hkv.trans hs, hkv]

/-- Only a failed width check raises an error in an engine step (R133). -/
theorem EngineRow.error {s t : State} (h : EngineRow s t) : (t.err = s.err ∧ t.ecode = s.ecode) ∨
    (s.fsm = .exec ∧ t = endedInWidthViolation s) := by
  cases h
  case violation hs => exact .inr ⟨hs, finishPrimitive_false 0 s⟩
  all_goals exact .inl ⟨rfl, rfl⟩

/-- A busy engine's command is in EXEC or takes a row of the controller. -/
theorem exec_case_of_busy {i : Instr} {s t : State} (hi : i ≠ .srst) (hb : busy s = true)
    (h : exec i s = .next t) :
    ExecCase i s t ∨ RunCase (kselOf i) (fun _ => .fault .noTransition) s t := by
  by_cases he : s.fsm = .exec
  · have stuck (hc : exec i s = .fault .noTransition) : False := by simp [hc] at h
    exact .inl (exec_exec_case hi (by rintro rfl; exact stuck (commandStep_of_exec he))
      (by rintro rfl; exact stuck (commandStep_of_exec he)) he h)
  · rw [exec_of_running _ hi hb he] at h
    exact .inr (runningStep_case h)

/-! ### The next states of a host write -/

/-- A busy engine drops an operand or a command, takes STATUS and CONFIG, and is abandoned by SRST (R52, R136,
R137). -/
theorem writeCase_of_busy {off : Offset} {v : Word} {s t : State} (hb : busy s = true)
    (h : WriteCase off v s t) : (abandons (.write off 8 v) ∧ t = softReset s) ∨
      t = raiseError .busyViolation s ∨ t = writeStatus v s ∨ t = writeConfig v s ∨ t = s := by
  cases h with
  | srst ho hv => exact .inl ⟨⟨ho, rfl, hv⟩, rfl⟩
  | cmdBusy | operandBusy => exact .inr (.inl rfl)
  | status => exact .inr (.inr (.inl rfl))
  | config => exact .inr (.inr (.inr (.inl rfl)))
  | ignored => exact .inr (.inr (.inr (.inr rfl)))
  | cmdIllegal | cmdIssued | key | din | opa | opb => simp_all -- these ask for an engine that is not busy

theorem sameOperands_of_write {off : Offset} {v : Word} {s t : State} (hb : busy s = true)
    (h : WriteCase off v s t) : SameOperands s t ∨ abandons (.write off 8 v) := by
  obtain ⟨ha, -⟩ | rfl | rfl | rfl | rfl := writeCase_of_busy hb h
  · exact .inr ha
  all_goals exact .inl (by simp [SameOperands])

/-- A command that decodes is accepted as its word (R115). -/
theorem issue_of_decodeWord {v : Word} {i : Instr} (hd : decodeWord v = .ok i) (s : State) :
    issue i s = accept v s := by
  obtain ⟨hwf, henc⟩ := wf_and_encode_of_decodeWord hd
  rw [issue, if_pos hwf, henc]

/-- A host write does not touch the subkey file, SRST aside. -/
theorem sk_of_write {off : Offset} {v : Word} {s t : State} (h : WriteCase off v s t) :
    t.sk = s.sk ∨ abandons (.write off 8 v) := by
  cases h with
  | srst ho hv => exact .inr ⟨ho, rfl, hv⟩
  | cmdIssued i _ _ _ hd => exact .inl (by rw [issue_of_decodeWord hd, accept_sk])
  | cmdBusy | cmdIllegal | operandBusy => exact .inl (raiseError_sk _ s)
  | _ => exact .inl rfl

/-- A host write changes KV only when it is a KEY write, which clears it, or SRST (R34). -/
theorem kv_of_write {off : Offset} {v : Word} {s t : State} (h : WriteCase off v s t) : t.kv = s.kv ∨
    (t.kv = false ∧ (abandons (.write off 8 v) ∨ (busy s = false ∧ off = 0x20))) := by
  cases h with
  | srst ho hv => exact .inr ⟨rfl, .inl ⟨ho, rfl, hv⟩⟩
  | key ho hb => exact .inr ⟨rfl, .inr ⟨hb, ho⟩⟩
  | cmdIssued i _ _ _ hd => exact .inl (by rw [issue_of_decodeWord hd, accept_kv])
  | cmdBusy | cmdIllegal | operandBusy => exact .inl (raiseError_kv _ s)
  | _ => exact .inl rfl

/-- A host write changes LASTCMD only by the acceptance of its own word, or by SRST (R25). -/
theorem lastcmd_of_write {off : Offset} {v : Word} {s t : State} (h : WriteCase off v s t) :
    t.lastcmd = s.lastcmd ∨ abandons (.write off 8 v) ∨
      (off = 0x08 ∧ busy s = false ∧ legal v = true ∧ t.lastcmd = v) := by
  cases h with
  | srst ho hv => exact .inr (.inl ⟨ho, rfl, hv⟩)
  | cmdIssued i ho _ hb hd =>
    exact .inr (.inr ⟨ho, hb, (legal_iff_decodes v).2 ⟨i, hd⟩, by rw [issue_of_decodeWord hd, accept_lastcmd]⟩)
  | cmdBusy | cmdIllegal | operandBusy => exact .inl (raiseError_lastcmd _ s)
  | _ => exact .inl rfl

/-! ### The obligations -/

/-- Settles O55: no engine step touches the operands, and a busy engine takes no operand and no command. -/
theorem operandsStayWhileBusy : Obligations.OperandsStayWhileBusy := by
  intro s t hb h hna
  show SameOperands s t
  cases step_case h with
  | engine _ _ h => exact (engineRow_of_engineCase h).sameOperands
  | turn _ _ _ h => exact (engineRow_of_engineCase h).sameOperands
  | write off v rest _ hi _ h =>
    exact (sameOperands_of_write (s := { s with inputs := rest }) hb h).resolve_right (hna _ _ hi)
  | read | waited => simp [SameOperands]
  | reset rest hi => exact absurd trivial (hna _ _ hi)

/-- Settles O56: of the engine's rows only the derivation step writes the file, and of the inputs only those
that abandon. -/
theorem subkeyFileIsWrittenOnlyByDerivation : Obligations.SubkeyFileIsWrittenOnlyByDerivation := by
  intro s t h i hne
  cases step_case h with
  | engine _ _ h => exact .inl (((engineRow_of_engineCase h).sk i).resolve_left hne)
  | turn _ _ _ h => exact .inl (((engineRow_of_engineCase h).sk i).resolve_left hne)
  | write off v rest _ hi _ h =>
    exact .inr ⟨_, rest, hi, (sk_of_write h).resolve_left fun hsk => hne (by rw [hsk])⟩
  | read | waited => exact absurd rfl hne
  | reset rest hi => exact .inr ⟨_, rest, hi, trivial⟩

/-- Settles O57: the engine only ever sets KV, a host write only ever clears it. -/
theorem keyValidIsSetByDerivationAndClearedByKeyWrites :
    Obligations.KeyValidIsSetByDerivationAndClearedByKeyWrites := by
  refine ⟨?rises, ?falls, ?keyWrite⟩
  case rises =>
    intro s t h hs ht
    cases step_case h with
    | engine _ _ h => exact ((engineRow_of_engineCase h).kv.resolve_left (by simp [hs, ht])).2
    | turn _ _ _ h => exact ((engineRow_of_engineCase h).kv.resolve_left (by simp [hs, ht])).2
    | write off v rest _ _ _ h =>
      obtain hkv | ⟨hkv, -⟩ := kv_of_write h
      all_goals simp [hs, ht] at hkv
    | read | waited => simp [hs] at ht
    | reset => cases ht
  case falls =>
    intro s t h hs ht
    cases step_case h with
    | engine _ _ h => exact absurd ((engineRow_of_engineCase h).kv_stays hs) (by simp [ht])
    | turn _ _ _ h => exact absurd ((engineRow_of_engineCase h).kv_stays hs) (by simp [ht])
    | write off v rest _ hi _ h =>
      obtain ⟨-, ha | ⟨hb, rfl⟩⟩ := (kv_of_write h).resolve_left (by simp [hs, ht])
      · exact ⟨_, rest, hi, .inl ha⟩
      · exact ⟨_, rest, hi, .inr ⟨hb, v, rfl⟩⟩
    | read | waited => simp [hs] at ht
    | reset rest hi => exact ⟨_, rest, hi, .inl trivial⟩
  case keyWrite =>
    intro s v rest hi hb
    have hwrite := operandWrite_of_not_busy (fun t => { t with key := v, kv := false })
      (s := { s with inputs := rest }) hb
    exact ⟨_, (step_write hi (by decide)).trans (congrArg Host.Outcome.next hwrite), rfl, rfl⟩

/-- Settles O58: no engine step touches LASTCMD, and of the writes only an accepted one does. -/
theorem lastCommandIsTheLastAcceptedWord : Obligations.LastCommandIsTheLastAcceptedWord := by
  intro s t h hne
  have engine_keeps {u : State} (h : EngineCase u t) : t.lastcmd = u.lastcmd := by
    obtain ⟨-, -, -, -, hlast⟩ := (engineRow_of_engineCase h).sameOperands
    exact hlast
  cases step_case h with
  | engine _ _ h => exact absurd (engine_keeps h) hne
  | turn _ _ _ h => exact absurd (engine_keeps h) hne
  | write off v rest _ hi _ h =>
    obtain ha | ⟨rfl, hb, hlegal, hlast⟩ := (lastcmd_of_write h).resolve_left hne
    · exact .inr ⟨_, rest, hi, ha⟩
    · exact .inl ⟨v, rest, hi, hb, hlegal, hlast⟩
  | read | waited => exact absurd rfl hne
  | reset rest hi => exact .inr ⟨_, rest, hi, trivial⟩

/-- Settles O59: the rows of the controller raise nothing, and of the EXEC steps only a failed width check
does. -/
theorem onlyWidthChecksRaiseInAnEngineStep : Obligations.OnlyWidthChecksRaiseInAnEngineStep := by
  refine ⟨?never, ?widthOnly⟩
  case never =>
    intro i s t hi hb h
    obtain h | h := exec_case_of_busy (by rintro rfl; simp at hi) hb h
    · cases h
      case violation hcheck =>
        obtain rfl | rfl | rfl | rfl | rfl | rfl | rfl | rfl | ⟨rnd, rfl⟩ := hcheck
        all_goals simp at hi
      all_goals exact ⟨rfl, rfl⟩
    · cases h
      case exec _ h => cases h
      all_goals exact ⟨rfl, rfl⟩
  case widthOnly =>
    intro s t h hs ht
    obtain ⟨herr, -⟩ | ⟨hexec, rfl⟩ := (engineRow_of_engineCase (engineStep_case h)).error
    · simp [hs, ht] at herr
    · exact ⟨hexec, by simp [endedInWidthViolation, hs]⟩

end Sys2Proof.Machine
end

section
/-! PROOFS. The invariant (spec/10_state.md R40, R41; spec/42_key_schedule.md R108; spec/43_controller.md R120).
First what it says of the latched command and what it asks in each controller state; then one lemma for each
next state of an engine step; then host writes; then the obligations. -/

namespace Sys2Proof.Machine

/-! ### The latched command and its subkeys (R41, R118) -/

theorem EngineInv.latchedIn_of_decodeWord {s : State} {i : Instr} (h : EngineInv s)
    (hl : decodeWord s.lastcmd = .ok i) : latchedIn s.fsm i := by
  obtain ⟨j, hj, hin⟩ := h.latched
  exact Except.ok.inj (hj.symm.trans hl) ▸ hin

/-- A busy engine has a command latched, and it is not SRST. -/
theorem EngineInv.exists_latched {s : State} (h : EngineInv s) (hb : busy s = true) :
    ∃ i, decodeWord s.lastcmd = .ok i ∧ i ≠ .srst ∧ latchedIn s.fsm i := by
  obtain ⟨i, hl, hin⟩ := h.latched
  refine ⟨i, hl, ?_, hin⟩
  rintro rfl
  obtain ⟨hidle, hfin⟩ := (busy_eq_true s).1 hb
  cases hs : s.fsm
  case idle => exact hidle hs
  case finalized => exact hfin hs
  all_goals
    rw [hs] at hin
    simp [latchedIn] at hin

/-- Another controller state that the latched command is allowed in. -/
theorem LatchedInv.move {s t : State} (h : LatchedInv s) (hlast : t.lastcmd = s.lastcmd)
    (hfsm : ∀ i, latchedIn s.fsm i → latchedIn t.fsm i) : LatchedInv t := by
  obtain ⟨i, hl, hin⟩ := h
  exact ⟨i, hlast ▸ hl, hfsm i hin⟩

section
variable {s : State} {i : Instr} (hl : decodeWord s.lastcmd = .ok i)
include hl

theorem opcOf_lastcmd : opcOf s.lastcmd = opcode i := by
  obtain ⟨-, henc⟩ := wf_and_encode_of_decodeWord hl
  rw [← henc, opcOf_encode]

theorem cipherLatched_iff : cipherLatched s ↔ i = .enc ∨ i = .dec := by
  rw [cipherLatched, opcOf_lastcmd hl]
  exact opcode_cipher i

theorem cipherSubkeys_eq : cipherSubkeys s =
    if opcode i = 0x03 then fun j => subkeyOf s.key j.rev else subkeyOf s.key := by
  rw [cipherSubkeys, opcOf_lastcmd hl]

/-- With a valid cache the subkeys the controller reads are those of KEY, in the order of its command. -/
theorem ksel_eq_cipherSubkeys {sel : State → RoundIx → Subkey} (hcache : CacheInv s) (hk : s.kv = true)
    (hsel : kselOf i = some sel) : sel s = cipherSubkeys s := by
  rw [cipherSubkeys_eq hl]
  cases i
  case enc => cases hsel; exact funext (hcache hk)
  case dec => cases hsel; exact funext fun j => hcache hk j.rev
  all_goals cases hsel

end

/-! ### What the invariant asks in each controller state -/

section
variable {s : State}

theorem scheduleInv_of_not_inDerivation (h : s.fsm ≠ .ksPc1 ∧ s.fsm ≠ .ksRot) : ScheduleInv s := by
  simp [ScheduleInv, inDerivation, h]

theorem cipherInv_of_initialized (hs : s.fsm = .initialized) : CipherInv s ↔ s.round = 0 := by
  simp [CipherInv, inDerivation, hs]

theorem cipherInv_of_permuted (hs : s.fsm = .permuted) :
    CipherInv s ↔ s.round = 0 ∧ block s = ipF s.din := by
  simp [CipherInv, inDerivation, hs]

theorem cipherInv_of_inDerivation (hs : inDerivation s) :
    CipherInv s ↔ (cipherLatched s → s.round = 0 ∧ block s = ipF s.din) := by
  have hd := hs
  obtain hs | hs := hs <;> simp [CipherInv, hd, hs]

theorem cipherInv_of_round (hs : s.fsm = .round) : CipherInv s ↔ s.kv = true ∧ s.round ≠ 0 ∧
    block s = roundsF (cipherSubkeys s) (ipF s.din) s.round.toNat := by
  simp [CipherInv, inDerivation, hs]

theorem cipherInv_of_swapped (hs : s.fsm = .swapped) : CipherInv s ↔ s.kv = true ∧ s.round = 16 ∧
    block s = swapHalves (roundsF (cipherSubkeys s) (ipF s.din) 16) := by
  simp [CipherInv, inDerivation, hs]

theorem cipherInv_of_exec (hs : s.fsm = .exec) : CipherInv s := by
  simp [CipherInv, inDerivation, hs]

end

/-! ### Ranges, errors and completion -/

/-- Two states that agree on everything the invariant names but ERR and ECODE meet it together when ECODE
still goes with ERR. -/
theorem inv_of_ranges {s t : State} (h : EngineInv s) (hranges : RangesInv t)
    (hsame : t = { s with done := t.done, err := t.err, ecode := t.ecode }) : EngineInv t where
  ranges := hranges
  cache := hsame ▸ h.cache
  latched := hsame ▸ h.latched
  schedule := hsame ▸ h.schedule
  cipher := hsame ▸ h.cipher

theorem rangesInv_raiseError (e : EngineError) {s : State} (h : RangesInv s) : RangesInv (raiseError e s) := by
  obtain ⟨hround, hkscnt, hecode, hlast⟩ := h
  refine ⟨by simpa using hround, by simpa using hkscnt, ?_, by simpa using hlast⟩
  rw [raiseError_ecode, raiseError_err]
  cases herr : s.err
  · cases e <;> simp [errorCode]
  · simpa [herr] using hecode

theorem inv_raiseError (e : EngineError) {s : State} (h : EngineInv s) : EngineInv (raiseError e s) :=
  inv_of_ranges h (rangesInv_raiseError e h.ranges) (by rw [raiseError_eq])

theorem inv_writeStatus (v : Word) {s : State} (h : EngineInv s) : EngineInv (writeStatus v s) := by
  refine inv_of_ranges h ?_ rfl
  obtain ⟨hround, hkscnt, hecode, hlast⟩ := h.ranges
  refine ⟨hround, hkscnt, ?_, hlast⟩
  rw [writeStatus_ecode, writeStatus_err]
  cases v.getLsbD 3
  · simpa using hecode
  · simp

/-- Completion asks nothing more than ranges, cache and latch. -/
theorem inv_of_completed {s t : State} (h : EngineInv s) (hb : busy t = false) (hranges : RangesInv t)
    (hkey : t.key = s.key) (hkv : t.kv = s.kv) (hsk : t.sk = s.sk) (hlast : t.lastcmd = s.lastcmd) :
    EngineInv t := by
  obtain ⟨i, hl, -⟩ := h.latched
  exact inv_of_not_busy hb hranges ((cacheInv_congr hkey hkv hsk).2 h.cache) ⟨i, hlast ▸ hl⟩

theorem inv_finishPrimitive (ok : Bool) (v vb : Word) {s : State} (h : EngineInv s) :
    EngineInv (finishPrimitive ok v { s with resb := vb }) := by
  apply inv_of_completed h
  case hranges => cases ok; exacts [rangesInv_raiseError _ h.ranges, h.ranges]
  all_goals simp [busy]

/-! ### The controller's rows (R117 to R122) -/

theorem inv_initializedStep {s : State} (h : EngineInv s) (hs : s.fsm = .initialized) :
    EngineInv (initializedStep s) where
  ranges := h.ranges
  cache := h.cache
  latched := h.latched.move rfl (by rw [hs]; exact fun _ hin => hin)
  schedule := scheduleInv_of_not_inDerivation (by simp)
  cipher := (cipherInv_of_permuted rfl).2 ⟨(cipherInv_of_initialized hs).1 h.cipher, block_initializedStep s⟩

/-- A Feistel round with the right subkey after `n` rounds. -/
theorem inv_feistelRound {s : State} {n : RoundIx} {r : BitVec 5} (h : EngineInv s) (hk : s.kv = true)
    (hs : s.fsm = .permuted ∨ s.fsm = .round) (hr : r.toNat = n.val + 1)
    (hblock : block s = roundsF (cipherSubkeys s) (ipF s.din) n.val) :
    EngineInv (feistelRound (cipherSubkeys s n) r s) where
  ranges := by
    obtain ⟨-, hkscnt, hecode, hlast⟩ := h.ranges
    exact ⟨by rw [feistelRound_round, hr]; omega, hkscnt, hecode, hlast⟩
  cache := h.cache
  latched := h.latched.move rfl (by obtain hs | hs := hs <;> rw [hs] <;> exact fun _ hin => hin)
  schedule := scheduleInv_of_not_inDerivation (by simp)
  cipher := by
    refine (cipherInv_of_round rfl).2 ⟨hk, ?_, ?_⟩
    · rintro (rfl : r = 0)
      simp at hr
    · rw [block_feistelRound, feistelRound_round, hr, roundsF_succ _ _ _ n.isLt, hblock,
        cipherSubkeys_congr rfl rfl]
      rfl

theorem inv_swapStep {s : State} (h : EngineInv s) (hs : s.fsm = .round) (hr : s.round = 16) :
    EngineInv (swapStep s) where
  ranges := h.ranges
  cache := h.cache
  latched := h.latched.move rfl (by rw [hs]; exact fun _ hin => hin)
  schedule := scheduleInv_of_not_inDerivation (by simp)
  cipher := by
    obtain ⟨hk, -, hblock⟩ := (cipherInv_of_round hs).1 h.cipher
    refine (cipherInv_of_swapped rfl).2 ⟨hk, hr, ?_⟩
    rw [block_swapStep, hblock, hr]
    rfl

theorem inv_swappedStep {s : State} (h : EngineInv s) : EngineInv (swappedStep s) :=
  inv_of_completed h rfl h.ranges rfl rfl rfl rfl

/-! ### The derivation (R107 to R109) -/

/-- A derivation that starts where it may: in PERMUTED with the block ready, or in EXEC of a command that
derives (R107). -/
theorem inv_startDerivation {s : State} (h : EngineInv s) (hk : s.kv = false)
    (hlatched : LatchedInv (startDerivation s))
    (hcipher : cipherLatched s → s.round = 0 ∧ block s = ipF s.din) : EngineInv (startDerivation s) where
  ranges := by
    obtain ⟨hround, -, hecode, hlast⟩ := h.ranges
    exact ⟨hround, by simp, hecode, hlast⟩
  cache := h.cache
  latched := hlatched
  schedule := by
    refine ⟨fun _ => rfl, by simp, fun _ => ⟨halves_startDerivation s, by simp, by simp [hk]⟩⟩
  cipher := (cipherInv_of_inDerivation (.inl rfl)).2 hcipher

/-- A derivation counter in 1..16 as a number. -/
theorem toNat_kscnt_succ (k : RoundIx) : (BitVec.ofNat 5 (k.val + 1)).toNat = k.val + 1 := by
  rw [BitVec.toNat_ofNat]
  omega

/-- After the derivation step of round `k + 1` the first `k + 1` subkeys are done, if the first `k` were
before. -/
theorem derivationStep_subkeys {s : State} {k : RoundIx} (hhalves : halves s = halvesAfter s.key k.val)
    (hsk : ∀ j : RoundIx, j.val < k.val → s.sk[j] = subkeyOf s.key j) (j : RoundIx)
    (hj : j.val < k.val + 1) : (derivationStep k s).sk[j] = subkeyOf s.key j := by
  rw [derivationStep_sk, hhalves, ← halvesAfter_succ _ _ k.isLt]
  by_cases hjk : k.val = j.val
  · obtain rfl : k = j := Fin.ext hjk
    exact Vector.getElem_set_self k.isLt
  · exact (Vector.getElem_set_ne k.isLt j.isLt hjk).trans (hsk j (by omega))

theorem inv_derivationStep {s : State} {k : RoundIx} (h : EngineInv s)
    (hs : inDerivation s) (hk : s.kscnt.toNat = k.val) : EngineInv (derivationStep k s) := by
  obtain ⟨-, -, hsched⟩ := h.schedule
  obtain ⟨hhalves, hsk, hkv⟩ := hsched hs
  rw [hk] at hhalves hsk
  have hkv' : s.kv = false := by
    rw [← Bool.not_eq_true, hkv]
    rintro h16
    rw [h16] at hk
    exact absurd hk (Nat.ne_of_gt k.isLt)
  have hsubkeys := derivationStep_subkeys hhalves hsk
  have hlast : (derivationStep k s).kv = true ↔ k.val + 1 = 16 := by simp [hkv']
  constructor
  case ranges =>
    obtain ⟨hround, -, hecode, hlast⟩ := h.ranges
    exact ⟨hround, by rw [derivationStep_kscnt, toNat_kscnt_succ]; omega, hecode, hlast⟩
  case cache =>
    intro hkv j
    exact hsubkeys j (by rw [hlast.1 hkv]; exact j.isLt)
  case latched =>
    exact h.latched.move rfl (by obtain hs | hs := hs <;> rw [hs] <;> exact fun _ hin => hin)
  case schedule =>
    refine ⟨by simp, fun _ => ?_, fun _ => ⟨?_, ?_, ?_⟩⟩
    · rw [derivationStep_kscnt, ← BitVec.toNat_inj.ne, toNat_kscnt_succ]
      simp
    · rw [halves_derivationStep, hhalves, derivationStep_kscnt, toNat_kscnt_succ, halvesAfter_succ _ _ k.isLt]
      rfl
    · rw [derivationStep_kscnt, toNat_kscnt_succ]
      exact hsubkeys
    · rw [hlast, derivationStep_kscnt, ← BitVec.toNat_inj, toNat_kscnt_succ]
      rfl
  case cipher =>
    exact (cipherInv_of_inDerivation (.inr rfl)).2 ((cipherInv_of_inDerivation hs).1 h.cipher)

/-- The end of a derivation, back to a state its command is allowed in (R109). -/
theorem inv_endDerivation {s : State} {i : Instr} (h : EngineInv s) (hs : s.fsm = .ksRot)
    (hl : decodeWord s.lastcmd = .ok i) : EngineInv (endDerivation (kselOf i).isSome s) := by
  have hin := h.latchedIn_of_decodeWord hl
  rw [hs] at hin
  by_cases hi : i = .enc ∨ i = .dec
  · rw [(kselOf_isSome i).2 hi]
    exact {
      ranges := h.ranges
      cache := h.cache
      latched := ⟨i, hl, hi⟩
      schedule := scheduleInv_of_not_inDerivation (by simp)
      cipher := (cipherInv_of_permuted rfl).2
        ((cipherInv_of_inDerivation (.inr hs)).1 h.cipher ((cipherLatched_iff hl).2 hi)) }
  · rw [Bool.eq_false_iff.2 ((kselOf_isSome i).not.2 hi)]
    have hexec : latchedIn .exec i := by
      obtain ⟨hc, hd⟩ := not_or.1 hi
      obtain rfl | ⟨rnd, rfl⟩ | ⟨rnd, rfl⟩ := (hin.resolve_left hc).resolve_left hd
      all_goals simp [latchedIn]
    exact {
      ranges := h.ranges
      cache := h.cache
      latched := ⟨i, hl, hexec⟩
      schedule := scheduleInv_of_not_inDerivation (by simp)
      cipher := cipherInv_of_exec rfl }

/-! ### Every step of the engine -/

theorem inv_runCase {s t : State} {i : Instr} {f : State → Result} (h : EngineInv s)
    (hl : decodeWord s.lastcmd = .ok i) (hf : ∀ u, f s ≠ .next u) (hrun : RunCase (kselOf i) f s t) :
    EngineInv t := by
  cases hrun with
  | initialized hs => exact inv_initializedStep h hs
  | derive hs hk =>
    refine inv_startDerivation h hk (h.latched.move rfl ?_) fun _ => (cipherInv_of_permuted hs).1 h.cipher
    rw [hs]
    exact fun _ hin => hin.imp_right .inl
  | firstRound sel hs hk hsel =>
    obtain ⟨hr, hblock⟩ := (cipherInv_of_permuted hs).1 h.cipher
    rw [ksel_eq_cipherSubkeys hl h.cache hk hsel]
    exact inv_feistelRound h (n := 0) hk (.inl hs) rfl hblock
  | nextRound sel hs hr hsel =>
    obtain ⟨hk, -, hblock⟩ := (cipherInv_of_round hs).1 h.cipher
    rw [ksel_eq_cipherSubkeys hl h.cache hk hsel]
    exact inv_feistelRound h hk (.inr hs) (toNat_add_one hr) hblock
  | swap hs hr => exact inv_swapStep h hs hr
  | swapped => exact inv_swappedStep h
  | derivation hs hk => exact inv_derivationStep h hs rfl
  | derivationEnd hs => exact inv_endDerivation h hs hl
  | exec _ _ h => exact absurd h (hf t)
  | quiet => exact h

theorem inv_execCase {s t : State} {i : Instr} (h : EngineInv s) (hl : decodeWord s.lastcmd = .ok i)
    (hs : s.fsm = .exec) (hexec : ExecCase i s t) : EngineInv t := by
  cases hexec with
  | derive hi hk =>
    have hin := h.latchedIn_of_decodeWord hl
    rw [hs] at hin
    obtain ⟨hc, hd, -⟩ := hin
    refine inv_startDerivation h hk ⟨i, hl, .inr (.inr hi)⟩ fun hcipher => ?_
    obtain rfl | rfl := (cipherLatched_iff hl).1 hcipher
    exacts [absurd rfl hc, absurd rfl hd]
  | done => exact inv_of_completed h rfl h.ranges rfl rfl rfl rfl
  | result v vb => exact inv_finishPrimitive true v vb h
  | violation => exact inv_finishPrimitive false 0 s.resb h

theorem inv_engineCase {s t : State} (h : EngineInv s) (hstep : EngineCase s t) : EngineInv t := by
  cases hstep with
  | quiet => exact h
  | control i _ _ hl _ _ hrun => exact inv_runCase h hl (by simp) hrun
  | exec i _ hl _ _ _ hs hexec => exact inv_execCase h hl hs hexec
  | unlatched _ hb hnone =>
    obtain ⟨i, hl, hi, -⟩ := h.exists_latched hb
    exact absurd (hnone i hl) hi

/-! ### Host accesses, SRST and reset -/

/-- What the host still has to do and what the port returned are not in the invariant. -/
theorem inv_setPort {s : State} (h : EngineInv s) (inputs : List Input) (readData : Option Word) :
    EngineInv { s with inputs := inputs, readData := readData } :=
  inv_congr h rfl rfl rfl rfl rfl rfl rfl rfl rfl rfl rfl rfl rfl rfl

/-- Settles O46: at reset nothing runs, the counters are 0 and LASTCMD is the word of NOP. -/
theorem resetStateMeetsTheInvariant : Obligations.ResetStateMeetsTheInvariant := by
  refine inv_of_not_busy rfl ⟨by decide, by decide, by simp [State.reset], by decide⟩ ?cache ⟨.nop, rfl⟩
  case cache => intro hkv; cases hkv

theorem inv_softReset (s : State) : EngineInv (softReset s) :=
  inv_congr resetStateMeetsTheInvariant rfl rfl rfl rfl rfl rfl rfl rfl rfl rfl rfl rfl rfl rfl

theorem inv_resetEngine (s : State) : EngineInv (resetEngine s) :=
  inv_congr resetStateMeetsTheInvariant rfl rfl rfl rfl rfl rfl rfl rfl rfl rfl rfl rfl rfl rfl

/-- Acceptance of a legal word other than SRST (R115). -/
theorem inv_accept {s : State} {v : Word} {i : Instr} (h : EngineInv s) (hd : decodeWord v = .ok i)
    (hi : i ≠ .srst) : EngineInv (accept v s) := by
  obtain ⟨-, rfl⟩ := wf_and_encode_of_decodeWord hd
  obtain ⟨hround, hkscnt, hecode, -⟩ := h.ranges
  rw [accept_encode]
  by_cases hc : i = .enc ∨ i = .dec
  · rw [if_pos hc, if_pos hc]
    exact {
      ranges := ⟨by simp, hkscnt, hecode, rsvOf_encode i⟩
      cache := h.cache
      latched := ⟨i, hd, hc⟩
      schedule := scheduleInv_of_not_inDerivation (by simp)
      cipher := (cipherInv_of_initialized rfl).2 rfl }
  · rw [if_neg hc, if_neg hc]
    obtain ⟨he, hd'⟩ := not_or.1 hc
    exact {
      ranges := ⟨hround, hkscnt, hecode, rsvOf_encode i⟩
      cache := h.cache
      latched := ⟨i, hd, he, hd', hi⟩
      schedule := scheduleInv_of_not_inDerivation (by simp)
      cipher := cipherInv_of_exec rfl }

theorem inv_writeCase {off : Offset} {v : Word} {s t : State} (h : EngineInv s)
    (hw : WriteCase off v s t) : EngineInv t := by
  cases hw with
  | srst => exact inv_softReset s
  | cmdBusy | cmdIllegal | operandBusy => exact inv_raiseError _ h
  | cmdIssued i _ _ _ hd hi => exact issue_of_decodeWord hd s ▸ inv_accept h hd hi
  | status => exact inv_writeStatus v h
  | config | opa | opb => exact inv_congr h rfl rfl rfl rfl rfl rfl rfl rfl rfl rfl rfl rfl rfl rfl
  | key _ hb =>
    obtain ⟨i, hl, -⟩ := h.latched
    exact inv_of_not_busy hb h.ranges (by intro hkv; cases hkv) ⟨i, hl⟩
  | din _ hb =>
    obtain ⟨i, hl, -⟩ := h.latched
    exact inv_of_not_busy hb h.ranges h.cache ⟨i, hl⟩
  | ignored => exact h

/-- Every step of the machine keeps the invariant. -/
theorem inv_step {s t : State} (h : EngineInv s) (hstep : step s = .next t) : EngineInv t := by
  cases step_case hstep with
  | engine _ _ hcase => exact inv_engineCase h hcase
  | turn rest _ _ hcase => exact inv_engineCase (inv_setPort h rest s.readData) hcase
  | write _ _ rest _ _ _ hcase => exact inv_writeCase (inv_setPort h rest s.readData) hcase
  | read | waited => exact inv_setPort h _ _
  | reset => exact inv_resetEngine _

/-! ### Progress (R116) -/

/-- A command with an admitted round index has an EXEC step (R123). -/
theorem exists_exec_of_exec {i : Instr} {s : State} (hs : s.fsm = .exec) (hwf : i.wf = true)
    (hin : latchedIn .exec i) : ∃ t, exec i s = .next t := by
  obtain ⟨hc, hd, hi⟩ := hin
  cases i
  case enc => exact absurd rfl hc
  case dec => exact absurd rfl hd
  case srst => exact absurd rfl hi
  case ksd =>
    cases hk : s.kv
    · exact ⟨_, exec_derives_of_exec hs hk (.inl rfl)⟩
    · exact ⟨_, exec_ksd_of_exec hs hk⟩
  case rnds rnd =>
    obtain ⟨r, rfl⟩ := exists_roundIx rnd hwf
    cases hk : s.kv
    · exact ⟨_, exec_derives_of_exec hs hk (.inr (.inl ⟨_, rfl⟩))⟩
    · exact ⟨_, exec_rnds_of_exec hs hk r⟩
  case skrd rnd =>
    obtain ⟨r, rfl⟩ := exists_roundIx rnd hwf
    cases hk : s.kv
    · exact ⟨_, exec_derives_of_exec hs hk (.inr (.inr ⟨_, rfl⟩))⟩
    · exact ⟨_, exec_skrd_of_exec hs hk r⟩
  case ksrot rnd =>
    obtain ⟨r, rfl⟩ := exists_roundIx rnd hwf
    exact ⟨_, exec_ksrot_of_exec hs r⟩
  all_goals exact ⟨_, commandStep_of_exec hs⟩

/-- Under the invariant a busy controller state that is not EXEC has a row (R116). -/
theorem EngineInv.exists_runCase {s : State} {i : Instr} (f : State → Result) (h : EngineInv s)
    (hl : decodeWord s.lastcmd = .ok i) (he : s.fsm ≠ .exec) : ∃ t, RunCase (kselOf i) f s t := by
  have hin := h.latchedIn_of_decodeWord hl
  obtain ⟨hround, hkscnt, -, -⟩ := h.ranges
  have counter : ∀ x : BitVec 5, x.toNat ≤ 16 → x.toNat < 16 ∨ x = 16 := by decide
  cases hs : s.fsm
  case exec => exact absurd hs he
  case idle => exact ⟨_, .quiet (.inl hs)⟩
  case finalized => exact ⟨_, .quiet (.inr hs)⟩
  case initialized => exact ⟨_, .initialized hs⟩
  case swapped => exact ⟨_, .swapped hs⟩
  case permuted =>
    cases hk : s.kv
    · exact ⟨_, .derive hs hk⟩
    · rw [hs] at hin
      obtain ⟨sel, hsel⟩ := Option.isSome_iff_exists.1 ((kselOf_isSome i).2 hin)
      exact ⟨_, .firstRound sel hs hk hsel⟩
  case round =>
    obtain hr | hr := counter _ hround
    · rw [hs] at hin
      obtain ⟨sel, hsel⟩ := Option.isSome_iff_exists.1 ((kselOf_isSome i).2 hin)
      exact ⟨_, .nextRound sel hs hr hsel⟩
    · exact ⟨_, .swap hs hr⟩
  case ksPc1 =>
    obtain ⟨hzero, -, -⟩ := h.schedule
    exact ⟨_, .derivation (.inl hs) (by rw [hzero hs]; decide)⟩
  case ksRot =>
    obtain hk | hk := counter _ hkscnt
    · exact ⟨_, .derivation (.inr hs) hk⟩
    · exact ⟨_, .derivationEnd hs hk⟩

/-- Under the invariant the engine always has a next step. -/
theorem EngineInv.exists_engineStep {s : State} (h : EngineInv s) : ∃ t, engineStep s = .next t := by
  cases hb : busy s
  case false => exact ⟨s, engineStep_of_not_busy hb⟩
  case true =>
    obtain ⟨i, hl, hi, hin⟩ := h.exists_latched hb
    rw [engineStep_of_latched hb hl hi]
    by_cases he : s.fsm = .exec
    · obtain ⟨hwf, -⟩ := wf_and_encode_of_decodeWord hl
      exact exists_exec_of_exec he hwf (he ▸ hin)
    · obtain ⟨t, ht⟩ := h.exists_runCase (fun _ => .fault .noTransition) hl he
      exact ⟨t, (exec_of_running _ hi hb he).trans (runningStep_of_case ht)⟩

/-- A legal write is always answered (R52, R137). -/
theorem exists_writeReg (off : Offset) (v : Word) (s : State) : ∃ t, writeReg off v s = .next t := by
  have cmd : ∃ t, commandWrite v s = .next t := by
    by_cases hv : v = srstWord
    · exact ⟨_, hv ▸ commandWrite_srst s⟩
    cases hb : busy s
    case true => exact ⟨_, commandWrite_of_busy hv hb⟩
    case false =>
      cases hlegal : legal v
      · exact ⟨_, commandWrite_of_illegal hv hb hlegal⟩
      · exact ⟨_, commandWrite_of_legal hv hb hlegal⟩
  unfold writeReg
  split
  case h_1 => exact cmd
  all_goals exact ⟨_, rfl⟩

/-- Under the invariant the machine steps, unless the next input is refused by the port. -/
theorem EngineInv.exists_step {s : State} (h : EngineInv s)
    (hans : ∀ inp rest, s.inputs = inp :: rest → answered inp) : ∃ t, step s = .next t := by
  cases hin : s.inputs with
  | nil => simpa [step, hin] using h.exists_engineStep
  | cons inp rest =>
    have hinp := hans inp rest hin
    cases inp with
    | read off size => simp [step, hin, hostRead, show legalAccess off size = true from hinp]
    | write off size v =>
      simpa [step, hin, hostWrite, show legalAccess off size = true from hinp]
        using exists_writeReg off v { s with inputs := rest }
    | wait =>
      cases hb : busy s
      · simp [step, hin, hb]
      · simpa [step, hin, hb] using h.exists_engineStep
    | engine => simpa [step, hin] using (inv_setPort h rest s.readData).exists_engineStep
    | reset => simp [step, hin]

/-! ### DOUT (R24, R125, R126) -/

/-- In SWAPPED the block is ready for the inverse permutation, which gives the cipher's result. -/
theorem EngineInv.fpF_block {s : State} (h : EngineInv s) (hs : s.fsm = .swapped) :
    fpF (block s) = cipherF (cipherSubkeys s) s.din := by
  obtain ⟨-, -, hblock⟩ := (cipherInv_of_swapped hs).1 h.cipher
  rw [hblock, cipherF]

theorem cipherF_cipherSubkeys_of_enc {s : State} (hl : decodeWord s.lastcmd = .ok .enc) :
    cipherF (cipherSubkeys s) s.din = encF s.din s.key := by
  rw [cipherSubkeys_eq hl]
  rfl

theorem cipherF_cipherSubkeys_of_dec {s : State} (hl : decodeWord s.lastcmd = .ok .dec) :
    cipherF (cipherSubkeys s) s.din = decF s.din s.key := by
  rw [cipherSubkeys_eq hl]
  rfl

/-- Of the engine's rows only the SWAPPED one writes DOUT. -/
theorem EngineRow.dout {s t : State} (h : EngineRow s t) :
    t.dout = s.dout ∨ (s.fsm = .swapped ∧ t = swappedStep s) := by
  cases h
  case swapped hs => exact .inr ⟨hs, rfl⟩
  all_goals exact .inl (by simp)

/-- Of the host's writes only SRST writes DOUT. -/
theorem dout_of_write {off : Offset} {v : Word} {s t : State} (h : WriteCase off v s t) :
    t.dout = s.dout ∨ (abandons (.write off 8 v) ∧ t.dout = 0) := by
  cases h with
  | srst ho hv => exact .inr ⟨⟨ho, rfl, hv⟩, rfl⟩
  | cmdIssued i _ _ _ hd => exact .inl (by rw [issue_of_decodeWord hd, accept_dout])
  | cmdBusy | cmdIllegal | operandBusy => exact .inl (raiseError_dout _ s)
  | _ => exact .inl rfl

/-- An engine step that changes DOUT is the SWAPPED step of ENC or DEC, and gives that cipher's result. -/
theorem EngineInv.dout_of_engineCase {s t : State} (h : EngineInv s) (hcase : EngineCase s t)
    (hne : t.dout ≠ s.dout) : s.fsm = .swapped ∧ t.fsm = .finalized ∧
      (decodeWord s.lastcmd = .ok .enc ∧ t.dout = encF s.din s.key ∨
       decodeWord s.lastcmd = .ok .dec ∧ t.dout = decF s.din s.key) := by
  obtain ⟨hs, rfl⟩ := (engineRow_of_engineCase hcase).dout.resolve_left hne
  obtain ⟨i, hl, -, hin⟩ := h.exists_latched (by simp [busy, hs])
  refine ⟨hs, rfl, ?_⟩
  rw [swappedStep_dout, h.fpF_block hs]
  rw [hs] at hin
  obtain rfl | rfl := hin
  · exact .inl ⟨hl, cipherF_cipherSubkeys_of_enc hl⟩
  · exact .inr ⟨hl, cipherF_cipherSubkeys_of_dec hl⟩

/-! ### The obligations -/

/-- Settles O47: each next state of a step meets the invariant, row by row. -/
theorem everyStepKeepsTheInvariant : Obligations.EveryStepKeepsTheInvariant :=
  fun _ _ h hstep => inv_step h hstep

/-- Settles O48: the invariant keeps the engine inside the table of R116. -/
theorem noStepIsStuckUnderTheInvariant : Obligations.NoStepIsStuckUnderTheInvariant :=
  fun _ h hans => h.exists_step hans

/-- Settles O50: the invariant holds the block of the present DIN and KEY, so whatever came before, the SWAPPED
step ends with the cipher's result. -/
theorem doutIsTheCipherResultUnderEveryInterleaving :
    Obligations.DoutIsTheCipherResultUnderEveryInterleaving := by
  refine ⟨?enc, ?dec, ?only⟩
  case enc =>
    intro s h hs hl
    rw [exec_of_runCase (by simp) hs (by decide) (.swapped hs), ← cipherF_cipherSubkeys_of_enc hl,
      ← h.fpF_block hs]
    rfl
  case dec =>
    intro s h hs hl
    rw [exec_of_runCase (by simp) hs (by decide) (.swapped hs), ← cipherF_cipherSubkeys_of_dec hl,
      ← h.fpF_block hs]
    rfl
  case only =>
    intro s t h hstep hne
    cases step_case hstep with
    | engine _ _ hcase => exact .inl (h.dout_of_engineCase hcase hne)
    | turn rest _ _ hcase => exact .inl ((inv_setPort h rest s.readData).dout_of_engineCase hcase hne)
    | write off v rest _ hi _ hcase =>
      obtain ⟨ha, hzero⟩ := (dout_of_write hcase).resolve_left hne
      exact .inr ⟨_, rest, hi, ha, hzero⟩
    | read | waited => exact absurd rfl hne
    | reset rest hi => exact .inr ⟨_, rest, hi, trivial, rfl⟩

end Sys2Proof.Machine
end

section
/-! PROOFS. The algorithm (spec/40_tables.md R73, spec/41_datapath.md R92, spec/42_key_schedule.md R105, R106,
spec/43_controller.md R125 to R127). First the block permutations; then rounds run backwards; then what the key
schedule depends on; then the obligations. -/

namespace Sys2Proof.Machine

/-! ### The block permutations undo each other (R73) -/

/-- The position that IP's table takes output `j + 1` from is where FP's table puts it back (R73). -/
theorem tableFP_tableIP : ∀ j : Fin 64, tableFP.getD (tableIP.getD j.val 0 - 1) 0 = j.val + 1 := by decide

theorem ipF_fpF (v : Word) : ipF (fpF v) = v := by
  have entries : ∀ p ∈ tableIP, p - 1 < 64 := by decide
  apply BitVec.eq_of_getMsbD_eq
  intro j hj
  have hlt := forall_getD (d := 0) entries (by decide) j
  rw [ipF, getMsbD_perm (n := 64) tableIP _ rfl j hj, fpF, getMsbD_perm (n := 64) tableFP v rfl _ hlt,
    tableFP_tableIP ⟨j, hj⟩, Nat.add_sub_cancel]

/-- On finitely many words a left inverse is a right inverse. -/
theorem fpF_ipF (v : Word) : fpF (ipF v) = v := by
  have finite : Finite Word := Finite.of_injective BitVec.toFin fun _ _ => BitVec.eq_of_toFin_eq
  have hinv : Function.LeftInverse ipF fpF := ipF_fpF
  exact hinv.rightInverse_of_surjective (Finite.surjective_of_injective hinv.injective) v

/-! ### Rounds backwards (R92, R127) -/

/-- A round undone: its lower half masks its upper one out again. -/
theorem roundF_inverse (b : Word) (k : Subkey) :
    (lo32 (roundF b k) ^^^ mangler (hi32 (roundF b k)) k) ++ hi32 (roundF b k) = b := by
  rw [hi32_roundF, roundF, lo32_append, BitVec.xor_assoc, BitVec.xor_self, BitVec.xor_zero, hi32_append_lo32]

/-- Between two half swaps a round undoes itself. -/
theorem roundF_swapHalves_roundF (b : Word) (k : Subkey) :
    roundF (swapHalves (roundF b k)) k = swapHalves b := by
  have hb := roundF_inverse b k
  generalize roundF b k = c at hb
  subst hb
  rw [swapHalves_append, roundF, swapHalves, lo32_append, hi32_append]

/-- `n` rounds with the subkeys in reverse, from the swapped block of round 16, take back the last `n`
rounds. -/
theorem roundsF_rev_swapHalves (ksel : RoundIx → Subkey) (b : Word) (n : Nat) (hn : n ≤ 16) :
    roundsF (fun i => ksel i.rev) (swapHalves (roundsF ksel b 16)) n =
      swapHalves (roundsF ksel b (16 - n)) := by
  induction n with
  | zero => rfl
  | succ n ih =>
    have hlt : 16 - (n + 1) < 16 := by omega
    have hlast : 16 - n = 16 - (n + 1) + 1 := by omega
    have hrev : (⟨n, hn⟩ : RoundIx).rev = ⟨16 - (n + 1), hlt⟩ := rfl
    rw [roundsF_succ _ _ n hn, ih (by omega), hrev, hlast, roundsF_succ _ _ _ hlt, roundF_swapHalves_roundF]

/-- The cipher with the subkeys in reverse undoes the cipher. -/
theorem cipherF_rev_cipherF (ksel : RoundIx → Subkey) (b : Word) :
    cipherF (fun i => ksel i.rev) (cipherF ksel b) = b := by
  rw [cipherF, cipherF, ipF_fpF, roundsF_rev_swapHalves _ _ 16 (by decide), swapHalves_swapHalves,
    Nat.sub_self, roundsF_zero, fpF_ipF]

/-! ### The key schedule (R105, R106) -/

/-- The halves after `n` stages, as the first `n` stages one after another. -/
theorem halvesAfter_eq_foldl (k : Word) (n : Nat) (hn : n ≤ 16) :
    halvesAfter k n = ((List.finRange 16).take n).foldl rotateHalves (pc1F k) := by
  induction n with
  | zero => rfl
  | succ n ih =>
    have hlen : n < (List.finRange 16).length := by simpa using hn
    rw [halvesAfter_succ k n hn, ih (by omega), List.take_succ_eq_append_getElem hlen, List.foldl_append,
      List.getElem_finRange]
    rfl

theorem halvesAfter_sixteen (k : Word) : halvesAfter k 16 = pc1F k :=
  (halvesAfter_eq_foldl k 16 (Nat.le_refl 16)).trans (foldl_rotateHalves_finRange (pc1F k))

/-- The key enters the schedule through PC1 alone. -/
theorem subkeyOf_congr {k m : Word} (h : pc1F k = pc1F m) : subkeyOf k = subkeyOf m := by
  funext i
  rw [subkeyOf, subkeyOf, halvesAfter_eq_foldl k _ i.isLt, halvesAfter_eq_foldl m _ i.isLt, h]

/-- A position that PC1 names is no parity position, so the mask keeps it. -/
theorem pc1F_congr_of_mask {k m : Word} (h : k &&& 0xFEFEFEFEFEFEFEFE = m &&& 0xFEFEFEFEFEFEFEFE) :
    pc1F k = pc1F m := by
  have kept : ∀ p ∈ tablePC1, (0xFEFEFEFEFEFEFEFE : Word).getMsbD (p - 1) = true := by decide
  apply perm_congr
  intro p hp
  have hbit := congrArg (BitVec.getMsbD · (p - 1)) h
  simpa only [BitVec.getMsbD_and, kept p hp, Bool.and_true] using hbit

/-! ### The obligations -/

/-- Settles O42: a round is undone by masking once more, and FP's table leads every position of IP's back. -/
theorem roundsAndBlockPermutationsAreInvertible : Obligations.RoundsAndBlockPermutationsAreInvertible :=
  ⟨fun _ _ => rfl, fun _ _ => rfl, fun b k => (roundF_inverse b k).symm, fpF_ipF, ipF_fpF, tableFP_tableIP⟩

/-- Settles O43: sixteen stages are a full turn, and the key enters through PC1, which names no parity
position. -/
theorem keyScheduleTurnsFullyAndIgnoresParity : Obligations.KeyScheduleTurnsFullyAndIgnoresParity := by
  refine ⟨halvesAfter_sixteen, fun k m h => ?_⟩
  have hsub : subkeyOf k = subkeyOf m := subkeyOf_congr (pc1F_congr_of_mask h)
  exact ⟨by rw [keySchedule, keySchedule, hsub], fun b => ⟨by rw [encF, encF, hsub], by rw [decF, decF, hsub]⟩⟩

/-- Settles O44: DEC is ENC with the subkeys in reverse, and reversing twice changes nothing. -/
theorem decryptionUndoesEncryption : Obligations.DecryptionUndoesEncryption := by
  refine ⟨fun b k => cipherF_rev_cipherF (subkeyOf k) b, fun b k => ?_⟩
  have h := cipherF_rev_cipherF (fun i => subkeyOf k i.rev) b
  simp only [Fin.rev_rev] at h
  exact h

/-- Settles O45: the vectors of the source, evaluated. -/
theorem goldenVectorsHold : Obligations.GoldenVectorsHold := by
  have hexp : eF 0xF0F0F0F0 = 0x7A17A17A17A1 := by decide
  have henc : encF 0x123456ABCD132536 0xAABB09182736CCDD = 0xC0B7A8D05F3A829C := by decide +kernel
  obtain ⟨hdec, -⟩ := decryptionUndoesEncryption
  exact ⟨hexp, henc, henc ▸ hdec _ _⟩

end Sys2Proof.Machine
end

section
/-! PROOFS. How steps make a run. -/

namespace Sys2Proof.Machine

theorem runsTo_zero (s : State) : runsTo 0 s s := rfl

/-- A run of any machine takes its first step and goes on from there. -/
theorem run_succ_eq_next (M : Host.Core) {n : Nat} {s u : M.State} :
    M.run (n + 1) s = .next u ↔ ∃ t, M.step s = .next t ∧ M.run n t = .next u := by
  rw [Host.Core.run]
  cases M.step s <;> simp

/-- A step and then a run. -/
theorem runsTo_succ {n : Nat} {s u : State} : runsTo (n + 1) s u ↔ ∃ t, step s = .next t ∧ runsTo n t u :=
  run_succ_eq_next Sys2Proof.core

/-- One run after another. -/
theorem runsTo_add {m n : Nat} {s t u : State} (hst : runsTo m s t) (htu : runsTo n t u) :
    runsTo (m + n) s u := by
  induction m generalizing s with
  | zero =>
    obtain rfl : s = t := Host.Outcome.next.inj hst
    rwa [Nat.zero_add]
  | succ m ih =>
    obtain ⟨s', hstep, hrun⟩ := runsTo_succ.1 hst
    rw [Nat.add_right_comm]
    exact runsTo_succ.2 ⟨s', hstep, ih hrun⟩

theorem runsTo_one {s t : State} (hstep : step s = .next t) : runsTo 1 s t := runsTo_succ.2 ⟨t, hstep, rfl⟩

end Sys2Proof.Machine
end

section
/-! PROOFS. The machine's step and the words of the port (spec/20_memory.md R46 to R49, spec/10_state.md R26,
R27, R30, spec/70_reset_and_hazards.md R143). First what a step does with each input but a write; then the words
STATUS, CONFIG and KSCD, field by field; then the obligations. -/

namespace Sys2Proof.Machine

/-! ### What a step does with each input -/

section
variable {s : State} {rest : List Input}

/-- With no input left the engine runs on (R116, R153). -/
theorem step_nil (hi : s.inputs = []) : step s = engineStep s := by simp [step, hi]

theorem step_engine (hi : s.inputs = .engine :: rest) : step s = engineStep { s with inputs := rest } := by
  simp [step, hi]

/-- WAIT leaves the engine its steps while it is busy (R70, log entry 8). -/
theorem step_wait_of_busy (hi : s.inputs = .wait :: rest) (hb : busy s = true) : step s = engineStep s := by
  simp [step, hi, hb]

theorem step_wait_of_not_busy (hi : s.inputs = .wait :: rest) (hb : busy s = false) :
    step s = .next { s with inputs := rest, readData := some (statusWord s) } := by
  simp [step, hi, hb]

theorem step_read {off : Offset} (hi : s.inputs = .read off 8 :: rest) (hl : legalAccess off 8 = true) :
    step s = .next { s with inputs := rest, readData := some (readReg off s) } := by
  simp only [step, hi, hostRead, hl, if_true]
  rfl

theorem legalAccess_eq_false {off : Offset} {size : Nat} (h : off.toNat % 8 ≠ 0 ∨ size ≠ 8) :
    legalAccess off size = false := by
  obtain h | h := h <;> simp [legalAccess, h]

/-- The port refuses what it does not answer, whatever the engine is doing (R48). -/
theorem step_refused {off : Offset} {size : Nat} {v : Word} (hl : legalAccess off size = false)
    (hi : s.inputs = .read off size :: rest ∨ s.inputs = .write off size v :: rest) :
    step s = .refused .busError := by
  obtain hi | hi := hi <;> simp [step, hi, hostRead, hostWrite, hl]

end

/-- What a word of the opcode table decodes to is what the decoder reads from the word that `withFetchWord`
places. -/
theorem decodeWord_of_decodeTableWord {n w : Nat} {i : Instr} (h : decodeTableWord n w = some i) :
    decodeWord (BitVec.ofNat 64 (w % 2 ^ n)) = .ok i := by
  unfold decodeTableWord at h
  split at h
  case isTrue =>
    split at h
    case h_1 j hd => exact Option.some.inj h ▸ hd
    case h_2 => cases h
  case isFalse => cases h

/-- A command word that decodes runs its command, unless another one is running (R129, R137). -/
theorem commandWrite_of_decodeWord {v : Word} {i : Instr} {s : State} (hd : decodeWord v = .ok i)
    (hb : busy s = false) : commandWrite v s = exec i s := by
  by_cases hv : v = srstWord
  · obtain rfl : i = .srst := Except.ok.inj (hd.symm.trans (hv ▸ rfl))
    rw [hv]
    exact commandWrite_srst s
  · rw [commandWrite, if_neg hv, if_neg (by simp [hb]), hd]

/-- The state that `withFetchWord` leaves its command is not busy. -/
theorem busy_of_fetched (s : State) :
    busy { s with fsm := if busy s then .finalized else s.fsm } = false := by
  cases hb : busy s
  · exact hb
  · rfl

/-! ### The registers of the window (R46) -/

theorem readReg_eq (off : Offset) (s : State) : readReg off s =
    if off = 0x00 then 0x0000000044455301
    else if off = 0x08 then s.lastcmd
    else if off = 0x10 then statusWord s
    else if off = 0x18 then configWord s
    else if off = 0x20 then s.key
    else if off = 0x28 then s.din
    else if off = 0x30 then s.dout
    else if off = 0x38 then s.opa
    else if off = 0x40 then s.opb
    else if off = 0x48 then s.resa
    else if off = 0x50 then s.resb
    else if off = 0x58 then kscdWord s
    else 0 := by
  simp only [← BitVec.toNat_inj]
  unfold readReg
  split <;> simp_all [idWord]

/-! ### Fields of a concatenation, counted from its lower end -/

/-- A field of the upper part. -/
theorem extract_above {n m o l : Nat} {a : BitVec n} {b : BitVec m} {c : BitVec l}
    (h : a.extractLsb' o l = c) : (a ++ b).extractLsb' (o + m) l = c := by
  rw [extract_concat_of_ge a b _ _ (Nat.le_add_left m o), Nat.add_sub_cancel, h]

/-- A bit of the upper part. -/
theorem getLsbD_above {n m o : Nat} {a : BitVec n} {b : BitVec m} {c : Bool} (h : a.getLsbD o = c) :
    (a ++ b).getLsbD (o + m) = c := by
  rw [getLsbD_concat, if_neg (by omega), Nat.add_sub_cancel, h]

/-- The flag at the lower end. -/
theorem getLsbD_append_bit {n : Nat} (a : BitVec n) (b : Bool) : (a ++ bit b).getLsbD 0 = b := by
  rw [getLsbD_concat]
  cases b <;> rfl

/-! ### STATUS, CONFIG and KSCD (R26, R27, R30, R35) -/

section
variable (s : State)

/-- BUSY, DONE, KV and ERR. -/
theorem statusWord_flags : (statusWord s).getLsbD 0 = busy s ∧ (statusWord s).getLsbD 1 = s.done ∧
    (statusWord s).getLsbD 2 = s.kv ∧ (statusWord s).getLsbD 3 = s.err := by
  unfold statusWord
  refine ⟨?_, ?_, ?_, ?_⟩
  all_goals
    repeat apply getLsbD_above
    exact getLsbD_append_bit _ _

/-- ECODE, FSM, ROUND and KSCNT. -/
theorem statusWord_fields : (statusWord s).extractLsb' 8 4 = s.ecode ∧
    (statusWord s).extractLsb' 16 4 = fsmCode s.fsm ∧ (statusWord s).extractLsb' 24 5 = s.round ∧
    (statusWord s).extractLsb' 32 5 = s.kscnt := by
  unfold statusWord
  refine ⟨?_, ?_, ?_, ?_⟩
  all_goals
    repeat apply extract_above
    exact extract_lo_concat _ _

theorem statusWord_reserved : (statusWord s).extractLsb' 4 4 = 0 ∧ (statusWord s).extractLsb' 12 4 = 0 ∧
    (statusWord s).extractLsb' 20 4 = 0 ∧ (statusWord s).extractLsb' 29 3 = 0 ∧
    (statusWord s).extractLsb' 37 27 = 0 := by
  unfold statusWord
  refine ⟨?_, ?_, ?_, ?_, ?top⟩
  case top =>
    repeat apply extract_above
    rfl
  all_goals
    repeat apply extract_above
    exact extract_lo_concat _ _

theorem configWord_fields : (configWord s).getLsbD 0 = s.die ∧ (configWord s).getLsbD 1 = s.eie ∧
    (configWord s).extractLsb' 2 62 = 0 := by
  refine ⟨getLsbD_append_bit _ _, getLsbD_above (getLsbD_append_bit _ _), ?_⟩
  unfold configWord
  repeat apply extract_above
  rfl

theorem kscdWord_fields : (kscdWord s).extractLsb' 28 28 = s.c ∧ (kscdWord s).extractLsb' 0 28 = s.d ∧
    (kscdWord s).extractLsb' 56 8 = 0 := by
  unfold kscdWord
  refine ⟨extract_above (extract_lo_concat _ _), extract_lo_concat _ _, ?_⟩
  repeat apply extract_above
  rfl

end

/-! ### The obligations -/

/-- Settles O5: each clause is one branch of the step, and a command word that decodes is no word that the port
drops. -/
theorem stepRunsTheDecodedCommand : Obligations.StepRunsTheDecodedCommand := by
  refine ⟨?issued, ?running, ?quiet, ?fetched⟩
  case issued =>
    intro s v i rest hi hb hd
    exact (step_writeCmd hi).trans (commandWrite_of_decodeWord (s := { s with inputs := rest }) hd hb)
  case running =>
    intro s i hb hd hne
    have latched := engineStep_of_latched hb hd hne
    exact ⟨fun hi => (step_nil hi).trans latched, fun _ hi => (step_wait_of_busy hi hb).trans latched,
      fun rest hi => (step_engine hi).trans (engineStep_of_latched (s := { s with inputs := rest }) hb hd hne)⟩
  case quiet =>
    intro s hb
    exact ⟨fun hi => (step_nil hi).trans (engineStep_of_not_busy hb),
      fun rest hi => (step_engine hi).trans (engineStep_of_not_busy (s := { s with inputs := rest }) hb),
      fun _ hi => step_wait_of_not_busy hi hb⟩
  case fetched =>
    intro s n w i h
    exact (step_writeCmd rfl).trans
      (commandWrite_of_decodeWord (decodeWord_of_decodeTableWord h) (busy_of_fetched s))

/-- Settles O9: an aligned read of 8 bytes is answered, with the register of the map. -/
theorem legalReadReturnsTheRegister : Obligations.LegalReadReturnsTheRegister := by
  intro s off rest hi ha
  rw [step_read hi (legalAccess_of_aligned ha), readReg_eq]

/-- Settles O10: each field stands in the word's concatenation, and FSM's codes are those of `fsmCode`. -/
theorem statusConfigAndKscdFields : Obligations.StatusConfigAndKscdFields := by
  intro s
  obtain ⟨hbusy, hdone, hkv, herr⟩ := statusWord_flags s
  obtain ⟨hecode, hfsm, hround, hkscnt⟩ := statusWord_fields s
  obtain ⟨h4, h12, h20, h29, h37⟩ := statusWord_reserved s
  obtain ⟨hdie, heie, hconfig⟩ := configWord_fields s
  have code {f : Fsm} (hs : s.fsm = f) : (statusWord s).extractLsb' 16 4 = fsmCode f := hs ▸ hfsm
  exact ⟨hbusy ▸ busy_eq_true s, hdone, hkv, herr, h4, hecode, h12, code, code, code, code, code, code, code,
    code, code, h20, hround, h29, hkscnt, h37, hdie, heie, hconfig, kscdWord_fields s⟩

/-- Settles O12: the port answers no such access. -/
theorem misalignedOrNarrowAccessIsABusError : Obligations.MisalignedOrNarrowAccessIsABusError := by
  intro s off size v rest h
  have hl := legalAccess_eq_false h
  exact ⟨fun hi => step_refused (v := v) hl (.inl hi), fun hi => step_refused hl (.inr hi)⟩

/-- Settles O15: the reset input is performed in its own step, and the reset state is not busy. -/
theorem resetInputGivesTheResetState : Obligations.ResetInputGivesTheResetState := by
  refine ⟨fun s rest hi => step_reset hi, fun s rest hi => ?_⟩
  refine runsTo_succ.2 ⟨_, step_reset hi, runsTo_one ?_⟩
  exact (step_engine rfl).trans (engineStep_of_not_busy rfl)

end Sys2Proof.Machine
end

section
/-! PROOFS. Text on the host's side (spec/20_memory.md R60, R62; log entry 12). First a word and its eight bytes;
then a byte and its character; then the obligation. -/

namespace Sys2Proof.Machine

/-! ### A word and its eight bytes (R60, R62) -/

/-- Eight bytes as a word, the first the most significant. -/
def wordOfBytes (b : Fin 8 → BitVec 8) : Word := b 0 ++ b 1 ++ b 2 ++ b 3 ++ b 4 ++ b 5 ++ b 6 ++ b 7

theorem byteAt_wordOfBytes (b : Fin 8 → BitVec 8) (i : Fin 8) : byteAt (wordOfBytes b) i = b i := by
  unfold byteAt wordOfBytes
  fin_cases i
  all_goals repeat apply extract_above
  · exact BitVec.extractLsb'_eq_self -- the first byte is what is left of the concatenation
  all_goals exact extract_lo_concat _ _

/-- A word's bytes determine it: bit `j` stands in byte `7 - j / 8`. -/
theorem eq_of_byteAt {v w : Word} (h : ∀ i, byteAt v i = byteAt w i) : v = w := by
  apply BitVec.eq_of_getLsbD_eq
  intro j hj
  have hbit := congrArg (BitVec.getLsbD · (j % 8)) (h ⟨7 - j / 8, by omega⟩)
  have hpos : 56 - 8 * (7 - j / 8) + j % 8 = j := by omega
  have hlt : j % 8 < 8 := Nat.mod_lt _ (by decide)
  simpa only [byteAt, BitVec.getLsbD_extractLsb', hlt, decide_true, Bool.true_and, hpos] using hbit

theorem wordOfBytes_byteAt (v : Word) : wordOfBytes (byteAt v) = v :=
  eq_of_byteAt (byteAt_wordOfBytes (byteAt v))

/-! ### A byte and its character -/

/-- The character of a byte (R62). -/
def charOfByte (b : BitVec 8) : Char := Char.ofNat b.toNat

theorem toNat_charOfByte (b : BitVec 8) : (charOfByte b).toNat = b.toNat := by
  have hlt : b.toNat < 256 := b.isLt
  have hvalid : b.toNat.isValidChar := .inl (by omega)
  rw [charOfByte, Char.ofNat, dif_pos hvalid]
  rfl

theorem asciiByte_charOfByte (b : BitVec 8) : asciiByte (charOfByte b) = b := by
  rw [asciiByte, toNat_charOfByte, BitVec.ofNat_toNat, BitVec.setWidth_eq]

/-- An ASCII character fits in a byte. -/
theorem toNat_asciiByte {ch : Char} (h : ch.toNat ≤ 0x7F) : (asciiByte ch).toNat = ch.toNat := by
  rw [asciiByte, BitVec.toNat_ofNat]
  omega

theorem charOfByte_asciiByte {ch : Char} (h : ch.toNat ≤ 0x7F) : charOfByte (asciiByte ch) = ch := by
  rw [charOfByte, toNat_asciiByte h, Char.ofNat_toNat]

/-! ### Eight characters -/

/-- `toText` succeeds when every byte is ASCII, with the characters of the bytes. -/
theorem toText_eq_some {v : Word} {text : List Char} : toText v = some text ↔
    (∀ i, (byteAt v i).toNat ≤ 0x7F) ∧ (List.finRange 8).map (fun i => charOfByte (byteAt v i)) = text := by
  simp [toText, charOfByte, Function.comp_def]

theorem toText_eq_none {v : Word} : toText v = none ↔ ∃ i, 0x7F < (byteAt v i).toNat := by
  simp [toText]

/-- `parse` of eight characters. -/
theorem parse_map (f : Fin 8 → Char) : parse ((List.finRange 8).map f) =
    if ∀ i, (f i).toNat ≤ 0x7F then .ok (wordOfBytes fun i => asciiByte (f i)) else .error .inputEncoding := by
  by_cases h : ∀ i, (f i).toNat ≤ 0x7F
  · rw [if_pos h]
    exact if_neg (by simp [h])
  · rw [if_neg h]
    exact if_pos (by simpa using h)

theorem parse_of_length_ne {text : List Char} (h : text.length ≠ 8) : parse text = .error .inputLength := by
  unfold parse
  split
  case h_1 => exact absurd rfl h
  case h_2 => rfl

/-- A text of eight characters, as a function of the position. -/
theorem exists_map_of_length {n : Nat} {text : List Char} (h : text.length = n) :
    ∃ f : Fin n → Char, text = (List.finRange n).map f := by
  subst h
  exact ⟨text.get, (List.map_get_finRange text).symm⟩

/-! ### The obligation -/

/-- Settles O60: a byte and an ASCII character determine each other, and so do a word and its bytes. -/
theorem parseAndToTextAgree : Obligations.ParseAndToTextAgree := by
  refine ⟨fun _ h => parse_of_length_ne h, ?encoding, ?inverse, fun _ => toText_eq_none, by rfl⟩
  case encoding =>
    rintro text h ⟨ch, hmem, hch⟩
    obtain ⟨f, rfl⟩ := exists_map_of_length h
    obtain ⟨i, -, rfl⟩ := List.mem_map.1 hmem
    rw [parse_map, if_neg fun hall => absurd (hall i) (Nat.not_le.2 hch)]
  case inverse =>
    intro text v
    rw [toText_eq_some]
    by_cases h : text.length = 8
    case neg =>
      rw [parse_of_length_ne h]
      refine ⟨nofun, ?_⟩
      rintro ⟨-, rfl⟩
      simp at h
    case pos =>
      obtain ⟨f, rfl⟩ := exists_map_of_length h
      rw [parse_map]
      constructor
      · intro hparse
        split at hparse
        case isFalse => cases hparse
        case isTrue hall =>
          obtain rfl := Except.ok.inj hparse
          simp only [byteAt_wordOfBytes, toNat_asciiByte (hall _), charOfByte_asciiByte (hall _)]
          exact ⟨hall, trivial⟩
      · rintro ⟨hall, hmap⟩
        have hf : ∀ i, charOfByte (byteAt v i) = f i := fun i => List.map_inj_left.1 hmap i (List.mem_finRange i)
        simp only [← hf, toNat_charOfByte, asciiByte_charOfByte]
        rw [if_pos hall]
        exact congrArg _ (wordOfBytes_byteAt v)

end Sys2Proof.Machine
end

section
/-! PROOFS. Runs (spec/70_reset_and_hazards.md R152, R153). First the engine steps a command
has left, which every engine step takes down by one; then the ways a run ends; then the obligations. -/

namespace Sys2Proof.Machine

/-! ### The engine steps a command has left (R152) -/

/-- The engine steps until command `i` completes: a derivation has 17 steps from KSCNT = 0 to its end, and
after it a cipher has its 16 rounds, the swap and the last step, another command its EXEC step. -/
def stepsLeft (i : Instr) (s : State) : Nat :=
  match s.fsm with
  | .idle | .finalized => 0
  | .initialized | .exec => stepCount i s.kv
  | .permuted => stepCount i s.kv - 1
  | .round => 18 - s.round.toNat
  | .swapped => 1
  | .ksPc1 | .ksRot => 17 - s.kscnt.toNat + if i = .enc ∨ i = .dec then 18 else 1

theorem stepsLeft_congr {i : Instr} {s t : State} (hfsm : t.fsm = s.fsm) (hkv : t.kv = s.kv)
    (hround : t.round = s.round) (hkscnt : t.kscnt = s.kscnt) : stepsLeft i t = stepsLeft i s := by
  simp only [stepsLeft, hfsm, hkv, hround, hkscnt]

theorem stepsLeft_of_inDerivation (i : Instr) {s : State} (hs : inDerivation s) :
    stepsLeft i s = 17 - s.kscnt.toNat + if i = .enc ∨ i = .dec then 18 else 1 := by
  obtain hs | hs := hs <;> rw [stepsLeft, hs]

theorem stepsLeft_of_not_busy (i : Instr) {s : State} (hb : busy s = false) : stepsLeft i s = 0 := by
  obtain hs | hs := (busy_eq_false s).1 hb <;> simp [stepsLeft, hs]

theorem stepCount_le (i : Instr) (kv : Bool) : stepCount i kv ≤ 37 := by
  cases i <;> cases kv <;> simp [stepCount]

theorem stepsLeft_le (i : Instr) (s : State) : stepsLeft i s ≤ 37 := by
  have hcount := stepCount_le i s.kv
  unfold stepsLeft
  cases s.fsm
  case ksPc1 | ksRot => dsimp only; split <;> omega
  all_goals simp only; omega

theorem stepCount_of_cipher {i : Instr} (hi : i = .enc ∨ i = .dec) (kv : Bool) :
    stepCount i kv = if kv then 19 else 37 := by
  obtain rfl | rfl := hi <;> rfl

theorem stepCount_of_derives {i : Instr}
    (hi : i = .ksd ∨ (∃ rnd, i = .rnds rnd) ∨ (∃ rnd, i = .skrd rnd)) (kv : Bool) :
    stepCount i kv = if kv then 1 else 19 := by
  obtain rfl | ⟨rnd, rfl⟩ | ⟨rnd, rfl⟩ := hi <;> rfl

theorem stepCount_of_primitive {i : Instr} (hc : i ≠ .enc) (hd : i ≠ .dec) (hi : i ≠ .srst)
    (hder : ¬ (i = .ksd ∨ (∃ rnd, i = .rnds rnd) ∨ (∃ rnd, i = .skrd rnd))) (kv : Bool) :
    stepCount i kv = 1 := by
  cases i
  case enc => exact absurd rfl hc
  case dec => exact absurd rfl hd
  case srst => exact absurd rfl hi
  case ksd | rnds | skrd => simp at hder
  all_goals rfl

/-- An EXEC step starts a derivation or completes the command, as its step count says (R107, R123, R152). -/
theorem exec_derives_or_completes {i : Instr} {s t : State} (hs : s.fsm = .exec) (hin : latchedIn .exec i)
    (h : exec i s = .next t) :
    (t = derivationStarted s ∧ stepCount i s.kv = 19) ∨
    (t.fsm = .finalized ∧ t.done = true ∧ stepCount i s.kv = 1) := by
  obtain ⟨hc, hd, hi⟩ := hin
  by_cases hder : i = .ksd ∨ (∃ rnd, i = .rnds rnd) ∨ (∃ rnd, i = .skrd rnd)
  · cases hk : s.kv
    case false =>
      obtain rfl := Host.Outcome.next.inj ((exec_derives_of_exec hs hk hder).symm.trans h)
      exact .inl ⟨rfl, stepCount_of_derives hder false⟩
    case true =>
      right
      cases exec_exec_case hi hc hd hs h
      case derive hk' => simp [hk] at hk'
      all_goals exact ⟨by simp, by simp, stepCount_of_derives hder true⟩
  · have hone := stepCount_of_primitive hc hd hi hder s.kv
    right
    cases exec_exec_case hi hc hd hs h
    case derive hder' _ => exact absurd hder' hder
    all_goals exact ⟨by simp, by simp, hone⟩

/-- Every row of the controller takes one step off what is left. -/
theorem stepsLeft_of_runCase {s t : State} {i : Instr} {f : State → Result} (h : EngineInv s)
    (hb : busy s = true) (hl : decodeWord s.lastcmd = .ok i) (hf : ∀ u, f s ≠ .next u)
    (hrun : RunCase (kselOf i) f s t) : stepsLeft i t + 1 = stepsLeft i s := by
  have hin := h.latchedIn_of_decodeWord hl
  cases hrun with
  | initialized hs =>
    rw [hs] at hin
    simp only [stepsLeft, initializedStep_fsm, initializedStep_kv, hs, stepCount_of_cipher hin]
    split <;> rfl
  | derive hs hk =>
    rw [hs] at hin
    have hcipher : i = .enc ∨ i = .dec := hin
    rw [stepsLeft_of_inDerivation i (.inl rfl), if_pos hcipher]
    simp [stepsLeft, hs, hk, stepCount_of_cipher hcipher]
  | firstRound sel hs hk =>
    rw [hs] at hin
    simp [stepsLeft, hs, hk, stepCount_of_cipher hin]
  | nextRound sel hs hr =>
    simp only [stepsLeft, feistelRound_fsm, feistelRound_round, hs, toNat_add_one hr]
    omega
  | swap hs hr => simp [stepsLeft, hs, hr]
  | swapped hs => simp [stepsLeft, hs]
  | derivation hs hk =>
    rw [stepsLeft_of_inDerivation i hs, stepsLeft_of_inDerivation i (.inr rfl), derivationStep_kscnt,
      toNat_kscnt_succ]
    dsimp only
    omega
  | derivationEnd hs hk =>
    obtain ⟨-, -, hsched⟩ := h.schedule
    obtain ⟨-, -, hkv⟩ := hsched (.inr hs)
    rw [hs] at hin
    simp only [stepsLeft, endDerivation_fsm, endDerivation_kv, hs, hk, hkv.2 hk, kselOf_isSome]
    by_cases hi : i = .enc ∨ i = .dec
    · simp [hi, stepCount_of_cipher hi]
    · have hder := (hin.resolve_left (fun e => hi (.inl e))).resolve_left (fun e => hi (.inr e))
      simp [hi, stepCount_of_derives hder]
  | exec _ _ h => exact absurd h (hf t)
  | quiet hs => simp [(busy_eq_false s).2 hs] at hb

/-- Only the SWAPPED row leaves the busy states, and it completes. -/
theorem done_of_runCase {k f} {s t : State} (hb : busy s = true) (hf : ∀ u, f s ≠ .next u)
    (hrun : RunCase k f s t) (ht : busy t = false) : t.done = true := by
  cases hrun
  case swapped => rfl
  case exec _ h => exact absurd h (hf t)
  case quiet => simp [hb] at ht
  case derivationEnd => cases h : k.isSome <;> simp [busy, h] at ht
  all_goals simp [busy] at ht

/-- What one engine step of a running command does to its life: it keeps the invariant and the command, has one
step less to go, and is done when it is not busy any more. -/
structure Advances (i : Instr) (s t : State) : Prop where
  inv : EngineInv t
  lastcmd : t.lastcmd = s.lastcmd
  inputs : t.inputs = s.inputs
  left : stepsLeft i t + 1 = stepsLeft i s
  done : busy t = false → t.done = true

theorem EngineInv.exists_advance {s : State} {i : Instr} (h : EngineInv s) (hb : busy s = true)
    (hl : decodeWord s.lastcmd = .ok i) (hi : i ≠ .srst) : ∃ t, engineStep s = .next t ∧ Advances i s t := by
  obtain ⟨t, hstep⟩ := h.exists_engineStep
  have hcase := engineStep_case hstep
  obtain ⟨-, -, -, -, hlast⟩ := (engineRow_of_engineCase hcase).sameOperands
  suffices hrest : stepsLeft i t + 1 = stepsLeft i s ∧ (busy t = false → t.done = true) by
    obtain ⟨hleft, hdone⟩ := hrest
    exact ⟨t, hstep, inv_engineCase h hcase, hlast, engineCase_inputs hcase, hleft, hdone⟩
  rw [engineStep_of_latched hb hl hi] at hstep
  by_cases hs : s.fsm = .exec
  · obtain ⟨rfl, hcount⟩ | ⟨hfin, hdone, hcount⟩ :=
      exec_derives_or_completes hs (hs ▸ h.latchedIn_of_decodeWord hl) hstep
    · have hin := h.latchedIn_of_decodeWord hl
      rw [hs] at hin
      obtain ⟨hc, hd, -⟩ := hin
      exact ⟨by simp [stepsLeft, hs, hcount, derivationStarted, hc, hd], by simp [busy, derivationStarted]⟩
    · exact ⟨by simp [stepsLeft, hs, hcount, hfin], fun _ => hdone⟩
  · rw [exec_of_running (fun _ => .fault .noTransition) hi hb hs] at hstep
    have hrun := runningStep_case hstep
    exact ⟨stepsLeft_of_runCase h hb hl (by simp) hrun, done_of_runCase hb (by simp) hrun⟩

/-! ### Runs without host accesses -/

/-- A running command left alone is busy until its last step and then done. -/
theorem EngineInv.run_to_completion {s : State} {i : Instr} (h : EngineInv s) (hb : busy s = true)
    (hl : decodeWord s.lastcmd = .ok i) (hi : i ≠ .srst) (hin : s.inputs = []) :
    (∃ t, runsTo (stepsLeft i s) s t ∧ busy t = false ∧ t.done = true ∧ t.lastcmd = s.lastcmd) ∧
    ∀ m < stepsLeft i s, ∃ u, runsTo m s u ∧ busy u = true := by
  obtain ⟨t, hstep, hadv⟩ := h.exists_advance hb hl hi
  rw [← step_nil hin] at hstep
  cases hbt : busy t
  case false =>
    have hleft : stepsLeft i s = 1 := by rw [← hadv.left, stepsLeft_of_not_busy i hbt]
    rw [hleft]
    refine ⟨⟨t, runsTo_one hstep, hbt, hadv.done hbt, hadv.lastcmd⟩, fun m hm => ?_⟩
    obtain rfl : m = 0 := Nat.lt_one_iff.1 hm
    exact ⟨s, rfl, hb⟩
  case true =>
    obtain ⟨⟨u, hrun, hbu, hdone, hlast⟩, hbusy⟩ :=
      EngineInv.run_to_completion hadv.inv hbt (hadv.lastcmd ▸ hl) hi (hadv.inputs.trans hin)
    rw [← hadv.left]
    refine ⟨⟨u, runsTo_succ.2 ⟨t, hstep, hrun⟩, hbu, hdone, hlast.trans hadv.lastcmd⟩, fun m hm => ?_⟩
    cases m with
    | zero => exact ⟨s, rfl, hb⟩
    | succ m =>
      obtain ⟨w, hw, hbw⟩ := hbusy m (Nat.lt_of_succ_lt_succ hm)
      exact ⟨w, runsTo_succ.2 ⟨t, hstep, hw⟩, hbw⟩
termination_by stepsLeft i s
decreasing_by rw [← hadv.left]; exact Nat.lt_succ_self _

/-- The step in which the host issues a legal command other than SRST (R115). -/
theorem step_issues {s : State} {i : Instr} {rest : List Input} (hwf : i.wf = true) (hi : i ≠ .srst)
    (hb : busy s = false) (hin : s.inputs = .write 0x08 8 (encode i) :: rest) :
    step s = .next (accept (encode i) { s with inputs := rest }) := by
  have hd := decodeWord_encode hwf
  have hv : encode i ≠ srstWord := by
    intro hv
    rw [hv] at hd
    exact hi (Except.ok.inj (hd.symm.trans rfl))
  exact (step_writeCmd hin).trans (commandWrite_of_legal hv hb ((legal_iff_decodes _).2 ⟨i, hd⟩))

/-- At its acceptance a command has as many steps to go as the table says (R152). -/
theorem stepsLeft_accept (i : Instr) (s : State) : stepsLeft i (accept (encode i) s) = stepCount i s.kv := by
  rw [accept_encode]
  by_cases hi : i = .enc ∨ i = .dec <;> simp [stepsLeft, hi]

/-! ### Runs with host accesses (R153) -/

/-- `t` is nearer to the end of command `i` than `s`: it has ended, or fewer inputs and engine steps are left. -/
def NearerEnd (i : Instr) (s t : State) : Prop :=
  busy t = false ∨
    (t.lastcmd = s.lastcmd ∧ t.inputs.length + stepsLeft i t < s.inputs.length + stepsLeft i s)

/-- An input that the engine does not see is gone, and the command is where it was. -/
theorem nearerEnd_of_taken {i : Instr} {s t : State} {inp : Input} (hin : s.inputs = inp :: t.inputs)
    (hlast : t.lastcmd = s.lastcmd) (hleft : stepsLeft i t = stepsLeft i s) : NearerEnd i s t := by
  refine .inr ⟨hlast, ?_⟩
  rw [hin, hleft, List.length_cons]
  omega

/-- A write to a busy engine ends the command or changes nothing it depends on. -/
theorem exists_nearerEnd_write {s : State} (i : Instr) (hb : busy s = true) {off : Offset} {v : Word}
    {rest : List Input} (hin : s.inputs = .write off 8 v :: rest) (hlegal : legalAccess off 8 = true) :
    ∃ t, step s = .next t ∧ NearerEnd i s t := by
  obtain ⟨t, hw⟩ := exists_writeReg off v { s with inputs := rest }
  have hcase := writeReg_case hw
  have hinputs : t.inputs = rest := writeCase_inputs hcase
  refine ⟨t, (step_write hin hlegal).trans hw, ?_⟩
  obtain ⟨-, rfl⟩ | ht := writeCase_of_busy (s := { s with inputs := rest }) hb hcase
  · exact .inl rfl
  · apply nearerEnd_of_taken (hinputs ▸ hin)
    all_goals
      obtain rfl | rfl | rfl | rfl := ht
      all_goals simp [stepsLeft]

section
variable {s : State} {i : Instr} (h : EngineInv s) (hb : busy s = true)
  (hl : decodeWord s.lastcmd = .ok i) (hi : i ≠ .srst)
include h hb hl hi

/-- The engine's turn, with or without an input taken. -/
theorem EngineInv.exists_nearerEnd_engineStep {rest : List Input} (hrest : rest.length ≤ s.inputs.length) :
    ∃ t, engineStep { s with inputs := rest } = .next t ∧ NearerEnd i s t := by
  obtain ⟨t, hstep, hadv⟩ := (inv_setPort h rest s.readData).exists_advance hb hl hi
  have hinputs : t.inputs = rest := hadv.inputs
  have hleft : stepsLeft i t + 1 = stepsLeft i s := hadv.left
  refine ⟨t, hstep, .inr ⟨hadv.lastcmd, ?_⟩⟩
  rw [hinputs]
  omega

/-- With a busy engine every answered input leads nearer to the end of the command, and so does a step without
one. -/
theorem EngineInv.exists_nearerEnd (hans : ∀ inp ∈ s.inputs, answered inp) :
    ∃ t, step s = .next t ∧ NearerEnd i s t := by
  cases hin : s.inputs with
  | nil => exact step_nil hin ▸ h.exists_nearerEnd_engineStep hb hl hi (Nat.le_refl _)
  | cons inp rest =>
    have hinp := hans inp (by simp [hin])
    cases inp with
    | read off size =>
      obtain rfl := size_of_legalAccess hinp
      exact ⟨_, step_read hin hinp, nearerEnd_of_taken hin rfl rfl⟩
    | write off size v =>
      obtain rfl := size_of_legalAccess hinp
      exact exists_nearerEnd_write i hb hin hinp
    | wait => exact step_wait_of_busy hin hb ▸ h.exists_nearerEnd_engineStep hb hl hi (Nat.le_refl _)
    | engine => exact step_engine hin ▸ h.exists_nearerEnd_engineStep hb hl hi (by simp [hin])
    | reset => exact ⟨_, step_reset hin, .inl rfl⟩

end

/-- A busy engine ends its command within the inputs and engine steps that are left. -/
theorem EngineInv.run_to_end {s : State} {i : Instr} (h : EngineInv s) (hb : busy s = true)
    (hl : decodeWord s.lastcmd = .ok i) (hi : i ≠ .srst) (hans : ∀ inp ∈ s.inputs, answered inp) :
    ∃ n t, n ≤ s.inputs.length + stepsLeft i s ∧ runsTo n s t ∧ busy t = false := by
  obtain ⟨t, hstep, hnear⟩ := h.exists_nearerEnd hb hl hi hans
  cases hbt : busy t
  case false =>
    obtain ⟨u, -, hadv⟩ := h.exists_advance hb hl hi
    have hleft := hadv.left
    exact ⟨1, t, by omega, runsTo_one hstep, hbt⟩
  case true =>
    obtain ⟨hlast, hless⟩ := hnear.resolve_left (by simp [hbt])
    have hans' : ∀ inp ∈ t.inputs, answered inp := by
      obtain hin | ⟨inp, hin⟩ := step_inputs hstep
      · rwa [hin]
      · exact fun inp' hmem => hans inp' (by simp [hin, hmem])
    obtain ⟨n, u, hn, hrun, hbu⟩ := EngineInv.run_to_end (inv_step h hstep) hbt (hlast ▸ hl) hi hans'
    exact ⟨n + 1, u, by omega, runsTo_succ.2 ⟨t, hstep, hrun⟩, hbu⟩
termination_by s.inputs.length + stepsLeft i s

/-! ### The obligations -/

/-- Settles O53: acceptance puts the table's count of steps before the command, and each of them takes one off. -/
theorem stepCountsOfEveryCommand : Obligations.StepCountsOfEveryCommand := by
  intro i s h hwf hi hb hin
  have hd := decodeWord_encode hwf
  have hstep := step_issues hwf hi hb hin
  have hinv := inv_step h hstep
  generalize ht : accept (encode i) { s with inputs := [] } = t at hstep hinv
  have hcount : stepsLeft i t = stepCount i s.kv := ht ▸ stepsLeft_accept i _
  have hlast : t.lastcmd = encode i := ht ▸ accept_lastcmd _ _
  obtain ⟨⟨u, hrun, hbu, hdone, hlastu⟩, hbusy⟩ := hinv.run_to_completion (ht ▸ busy_accept _ _) (hlast ▸ hd) hi
    (ht ▸ accept_inputs _ _)
  rw [hcount] at hrun hbusy
  refine ⟨⟨u, ?_, hbu, hdone, hlastu.trans hlast⟩, fun m hpos hm => ?_⟩
  · rw [Nat.add_comm]
    exact runsTo_succ.2 ⟨t, hstep, hrun⟩
  · obtain ⟨w, hw, hbw⟩ := hbusy (m - 1) (by omega)
    refine ⟨w, ?_, hbw⟩
    rw [← Nat.sub_add_cancel hpos]
    exact runsTo_succ.2 ⟨t, hstep, hw⟩

/-- Settles O54: no command has more than 37 engine steps left, and every other step takes an input. -/
theorem everyRunningCommandEnds : Obligations.EveryRunningCommandEnds := by
  intro s h hb hans
  obtain ⟨i, hl, hi, -⟩ := h.exists_latched hb
  obtain ⟨n, t, hn, hrun, hbt⟩ := h.run_to_end hb hl hi hans
  have hle := stepsLeft_le i s
  exact ⟨n, t, by omega, hrun, hbt⟩

end Sys2Proof.Machine
end

section
/-! PROOFS. ENC and DEC from acceptance to completion (spec/43_controller.md R115 to R122, R125, R126,
spec/42_key_schedule.md R107 to R109). First the derivation, then the rounds, each as a run through states written
out; then the obligations. -/

namespace Sys2Proof.Machine

/-! ### One step of a run without inputs -/

/-- With no input left a running command takes its own next step. -/
theorem step_latched (s : State) {i : Instr} (hin : s.inputs = []) (hb : busy s = true)
    (hl : decodeWord s.lastcmd = .ok i) (hi : i ≠ .srst) : step s = exec i s :=
  (step_nil hin).trans (engineStep_of_latched hb hl hi)

/-! ### The derivation (R107 to R109) -/

/-- The subkey file with the first `n` subkeys of KEY in place. -/
def subkeysTo (n : Nat) (s : State) : Vector Subkey 16 :=
  Vector.ofFn fun j => if j.val < n then subkeyOf s.key j else s.sk[j]

/-- The state after `n` derivation steps, from `s` with KV = 0. -/
def derivedTo (n : Nat) (s : State) : State :=
  { s with
    c := cHalf (halvesAfter s.key n)
    d := dHalf (halvesAfter s.key n)
    sk := subkeysTo n s
    kscnt := BitVec.ofNat 5 n
    kv := decide (n = 16)
    fsm := if n = 0 then .ksPc1 else .ksRot }

theorem startDerivation_eq_derivedTo {s : State} (hk : s.kv = false) : startDerivation s = derivedTo 0 s := by
  have hsk : subkeysTo 0 s = s.sk := by
    simp [subkeysTo]
  simp [derivedTo, startDerivation, setHalves, hk, hsk]

theorem subkeysTo_succ (n : RoundIx) (s : State) :
    (subkeysTo n.val s).set n.val (subkeyOf s.key n) n.isLt = subkeysTo (n.val + 1) s := by
  apply Vector.ext
  intro j hj
  by_cases hnj : n.val = j
  · subst hnj
    simp [subkeysTo]
  · rw [Vector.getElem_set_ne _ _ hnj]
    simp only [subkeysTo, Vector.getElem_ofFn]
    have : j < n.val ↔ j < n.val + 1 := by omega
    simp only [this]

theorem derivationStep_derivedTo (n : RoundIx) (s : State) :
    derivationStep n (derivedTo n.val s) = derivedTo (n.val + 1) s := by
  have hhalves : halves (derivedTo n.val s) = halvesAfter s.key n.val := cHalf_append_dHalf _
  have hnot : n.val ≠ 16 := Nat.ne_of_lt n.isLt
  simp only [derivationStep, hhalves, ← halvesAfter_succ s.key n.val n.isLt]
  simp only [derivedTo, setHalves, ← subkeysTo_succ, subkeyOf]
  simp [hnot]

theorem busy_derivedTo (n : Nat) (s : State) : busy (derivedTo n s) = true := by
  by_cases hn : n = 0 <;> simp [busy, derivedTo, hn]

/-- The state after a whole derivation that ENC or DEC asked for in PERMUTED. -/
def derived (s : State) : State :=
  { s with
    c := (pc1F s.key).extractLsb' 28 28
    d := (pc1F s.key).extractLsb' 0 28
    sk := keySchedule s.key
    kscnt := 16
    kv := true }

theorem derivedTo_sixteen {s : State} (hs : s.fsm = .permuted) :
    { derivedTo 16 s with fsm := .permuted } = derived s := by
  have hsk : subkeysTo 16 s = keySchedule s.key := by
    simp [subkeysTo, keySchedule]
  simp only [derivedTo, derived, halvesAfter_sixteen, hsk, ← hs]
  rfl

section
variable {s : State} {i : Instr} (hin : s.inputs = []) (hl : decodeWord s.lastcmd = .ok i)
include hin hl

theorem runsTo_derivedTo (hi : i ≠ .srst) {n : Nat} (hn : n ≤ 16) :
    runsTo n (derivedTo 0 s) (derivedTo n s) := by
  induction n with
  | zero => rfl
  | succ n ih =>
    refine runsTo_add (ih (Nat.le_of_succ_le hn)) (runsTo_one ?_)
    have hfsm : (derivedTo n s).fsm = .ksPc1 ∨ (derivedTo n s).fsm = .ksRot := by
      by_cases hn : n = 0 <;> simp [derivedTo, hn]
    rw [step_latched (derivedTo n s) hin (busy_derivedTo n s) hl hi, exec_derivation (k := ⟨n, hn⟩) hi hfsm rfl,
      derivationStep_derivedTo ⟨n, hn⟩ s]

/-- A derivation that ENC or DEC asks for takes 18 steps and leaves the schedule of KEY. -/
theorem runsTo_derived (hi : i = .enc ∨ i = .dec) (hs : s.fsm = .permuted) (hk : s.kv = false) :
    runsTo 18 s (derived s) := by
  have hne : i ≠ .srst := by rintro rfl; simp at hi
  have hstart : step s = .next (derivedTo 0 s) := by
    rw [step_latched s hin (by simp [busy, hs]) hl hne, exec_of_runCase hne hs (by decide) (.derive hs hk),
      startDerivation_eq_derivedTo hk]
  have hend : step (derivedTo 16 s) = .next (derived s) := by
    rw [step_latched (derivedTo 16 s) hin (busy_derivedTo 16 s) hl hne, exec_derivationEnd hne rfl rfl, if_pos hi,
      derivedTo_sixteen hs]
  exact runsTo_add (runsTo_one hstart)
    (runsTo_add (runsTo_derivedTo hin hl hne (Nat.le_refl 16)) (runsTo_one hend))

end

/-! ### The rounds (R117 to R122) -/

/-- The state after `n` rounds on the present DIN with the subkeys `K`. -/
def roundsTo (K : RoundIx → Subkey) (n : Nat) (s : State) : State :=
  { s with
    l := hi32 (roundsF K (ipF s.din) n)
    r := lo32 (roundsF K (ipF s.din) n)
    round := BitVec.ofNat 5 n
    fsm := if n = 0 then .permuted else .round }

theorem block_roundsTo (K : RoundIx → Subkey) (n : Nat) (s : State) :
    block (roundsTo K n s) = roundsF K (ipF s.din) n := hi32_append_lo32 _

theorem busy_roundsTo (K : RoundIx → Subkey) (n : Nat) (s : State) : busy (roundsTo K n s) = true := by
  by_cases hn : n = 0 <;> simp [busy, roundsTo, hn]

theorem feistelRound_roundsTo (K : RoundIx → Subkey) (n : RoundIx) (s : State) :
    feistelRound (K n) (BitVec.ofNat 5 (n.val + 1)) (roundsTo K n.val s) = roundsTo K (n.val + 1) s := by
  simp only [feistelRound, block_roundsTo, ← roundsF_succ K _ n.val n.isLt]
  simp [roundsTo, setBlock]

/-- The state after ENC or DEC has completed on the present DIN with the subkeys `K`. -/
def cipherDone (K : RoundIx → Subkey) (s : State) : State :=
  { s with
    l := lo32 (roundsF K (ipF s.din) 16)
    r := hi32 (roundsF K (ipF s.din) 16)
    round := 16
    dout := cipherF K s.din
    done := true
    fsm := .finalized }

theorem swappedStep_swapStep_roundsTo (K : RoundIx → Subkey) (s : State) :
    swappedStep (swapStep (roundsTo K 16 s)) = cipherDone K s := by
  simp only [swappedStep, block_swapStep, block_roundsTo]
  rw [swapStep_eq]
  rfl

section
variable {s : State} {i : Instr} {sel : State → RoundIx → Subkey} {K : RoundIx → Subkey}
  (hin : s.inputs = []) (hl : decodeWord s.lastcmd = .ok i) (hsel : kselOf i = some sel)
  (hk : s.kv = true) (hK : ∀ t : State, t.sk = s.sk → sel t = K)
include hin hl hsel hk hK

theorem runsTo_roundsTo {n : Nat} (hn : n ≤ 16) : runsTo n (roundsTo K 0 s) (roundsTo K n s) := by
  have hne : i ≠ .srst := by rintro rfl; cases hsel
  induction n with
  | zero => rfl
  | succ n ih =>
    refine runsTo_add (ih (Nat.le_of_succ_le hn)) (runsTo_one ?_)
    have hround := feistelRound_roundsTo K ⟨n, hn⟩ s
    have hselK : sel (roundsTo K n s) ⟨n, hn⟩ = K ⟨n, hn⟩ := by rw [hK (roundsTo K n s) rfl]
    rw [← hselK] at hround
    rw [step_latched (roundsTo K n s) hin (busy_roundsTo K n s) hl hne, ← hround]
    cases n with
    | zero => exact exec_of_runCase (f := .permuted) hne rfl (by decide) (.firstRound sel rfl hk hsel)
    | succ n => exact exec_feistelRound (n := ⟨n + 1, hn⟩) hsel rfl rfl

/-- From PERMUTED with KV = 1 a cipher takes 18 steps: its sixteen rounds, the swap, and the last one. -/
theorem runsTo_cipherDone : runsTo 18 (roundsTo K 0 s) (cipherDone K s) := by
  have hne : i ≠ .srst := by rintro rfl; cases hsel
  have hswap : step (roundsTo K 16 s) = .next (swapStep (roundsTo K 16 s)) := by
    rw [step_latched (roundsTo K 16 s) hin rfl hl hne]
    exact exec_of_runCase (f := .round) hne rfl (by decide) (.swap rfl rfl)
  have hlast : step (swapStep (roundsTo K 16 s)) = .next (cipherDone K s) := by
    rw [step_latched (swapStep (roundsTo K 16 s)) hin rfl hl hne, ← swappedStep_swapStep_roundsTo]
    exact exec_of_runCase (f := .swapped) hne rfl (by decide) (.swapped rfl)
  exact runsTo_add (runsTo_roundsTo hin hl hsel hk hK (Nat.le_refl 16))
    (runsTo_add (runsTo_one hswap) (runsTo_one hlast))

end

/-! ### From acceptance to completion -/

/-- The state after the acceptance of ENC or DEC, with no input left (R115). -/
def cipherAccepted (i : Instr) (s : State) : State :=
  { s with lastcmd := encode i, done := false, round := 0, fsm := .initialized, inputs := [] }

theorem getElem_keySchedule (k : Word) (j : RoundIx) : (keySchedule k)[j] = subkeyOf k j :=
  Vector.getElem_ofFn j.isLt

/-- A valid cache is the schedule of KEY (R34). -/
theorem EngineInv.sk_eq_keySchedule {s : State} (h : EngineInv s) (hk : s.kv = true) :
    s.sk = keySchedule s.key := by
  apply Vector.ext
  intro j hj
  exact (h.cache hk ⟨j, hj⟩).trans (getElem_keySchedule s.key ⟨j, hj⟩).symm

/-- ENC or DEC, with the subkeys `K` that its choice makes of the schedule of KEY, from its acceptance to its
completion. -/
theorem EngineInv.runsTo_cipher {s : State} {i : Instr} {sel : State → RoundIx → Subkey}
    {K : RoundIx → Subkey} (h : EngineInv s) (hb : busy s = false)
    (hin : s.inputs = [.write 0x08 8 (encode i)]) (hwf : i.wf = true) (hsel : kselOf i = some sel)
    (hK : ∀ t : State, t.sk = keySchedule s.key → sel t = K) :
    runsTo (if s.kv then 20 else 38) s
      (cipherDone K (if s.kv then { cipherAccepted i s with kv := true, sk := keySchedule s.key }
        else derived (cipherAccepted i s))) := by
  have hne : i ≠ .srst := by rintro rfl; cases hsel
  have hi : i = .enc ∨ i = .dec := (kselOf_isSome i).1 (by rw [hsel]; rfl)
  have hd : decodeWord (cipherAccepted i s).lastcmd = .ok i := decodeWord_encode hwf
  have haccept : step s = .next (cipherAccepted i s) := by
    rw [step_issues hwf hne hb hin, accept_encode, if_pos hi, if_pos hi]
    rfl
  have hinit : step (cipherAccepted i s) = .next (roundsTo K 0 (cipherAccepted i s)) := by
    rw [step_latched (cipherAccepted i s) rfl rfl hd hne]
    exact exec_of_runCase (f := .initialized) hne rfl (by decide) (.initialized rfl)
  have hstart : runsTo 2 s (roundsTo K 0 (cipherAccepted i s)) :=
    runsTo_add (runsTo_one haccept) (runsTo_one hinit)
  cases hk : s.kv
  case true =>
    have hsk := h.sk_eq_keySchedule hk
    have hsame : { cipherAccepted i s with kv := true, sk := keySchedule s.key } = cipherAccepted i s := by
      rw [← hsk, ← hk]
      rfl
    rw [if_pos rfl, if_pos rfl, hsame]
    exact runsTo_add hstart (runsTo_cipherDone rfl hd hsel hk fun t ht => hK t (ht.trans hsk))
  case false =>
    have hderived : runsTo 18 (roundsTo K 0 (cipherAccepted i s)) (roundsTo K 0 (derived (cipherAccepted i s))) :=
      runsTo_derived (s := roundsTo K 0 (cipherAccepted i s)) rfl hd hi rfl hk
    exact runsTo_add hstart
      (runsTo_add hderived (runsTo_cipherDone (s := derived (cipherAccepted i s)) rfl hd hsel rfl hK))

/-! ### The obligations -/

/-- Settles O51: ENC's choice of subkeys is the schedule in its own order. -/
theorem encRunsToCompletion : Obligations.EncRunsToCompletion := by
  intro s h hb hin
  have hrun := h.runsTo_cipher (i := .enc) (K := subkeyOf s.key) hb hin rfl rfl
    fun t ht => funext fun j => by rw [kselEnc, ht, getElem_keySchedule]
  cases hk : s.kv
  all_goals
    rw [hk] at hrun
    exact hrun

/-- Settles O52: DEC's choice of subkeys is the schedule in reverse. -/
theorem decRunsToCompletion : Obligations.DecRunsToCompletion := by
  intro s h hb hin
  have hrun := h.runsTo_cipher (i := .dec) (K := fun j => subkeyOf s.key j.rev) hb hin rfl rfl
    fun t ht => funext fun j => by rw [kselDec, ht, getElem_keySchedule]
  cases hk : s.kv
  all_goals
    rw [hk] at hrun
    exact hrun

end Sys2Proof.Machine
end

section
/-! PROOFS. What the spec derives of the datapath commands (spec/40_tables.md R73, spec/41_datapath.md R93 to R104).
First the low bits of a zero-extended value; then the compositions; then the obligation. -/

namespace Sys2Proof.Machine

/-! ### A zero-extended value passes the width checks and is read back (R14, R91) -/

theorem zext64_half (a : Half) : zext64 a = (0 : BitVec 32) ++ a := BitVec.setWidth_eq_append (by decide)

theorem zext64_subkey (a : Subkey) : zext64 a = (0 : BitVec 16) ++ a := BitVec.setWidth_eq_append (by decide)

theorem fitsHalf_zext64 (a : Half) : fitsHalf (zext64 a) = true :=
  fitsHalf_eq_true.2 (zext64_half a ▸ extract_hi_concat 0 a)

theorem lo32_zext64 (a : Half) : lo32 (zext64 a) = a := zext64_half a ▸ extract_lo_concat 0 a

theorem fitsSubkey_zext64 (a : Subkey) : fitsSubkey (zext64 a) = true :=
  fitsSubkey_eq_true.2 (zext64_subkey a ▸ extract_hi_concat 0 a)

theorem lo48_zext64 (a : Subkey) : lo48 (zext64 a) = a := zext64_subkey a ▸ extract_lo_concat 0 a

/-! ### Commands one after another -/

/-- The next command in EXEC, with OPA the RESA of the one before. -/
def chained (t : State) : State := { t with fsm := .exec, opa := t.resa }

section
variable (v : Word) (s : State)

theorem chained_opa : (chained (finishedWith v s)).opa = v := rfl

theorem chained_opb : (chained (finishedWith v s)).opb = s.opb := rfl

theorem chained_err : (chained (finishedWith v s)).err = s.err := rfl

theorem finishedWith_err : (finishedWith v s).err = s.err := rfl

end

/-- COMB puts together what SPLIT took apart (R95, R96). -/
theorem exec_comb_of_split {s : State} (hs : s.fsm = .exec) : ∃ t u : State,
    exec .split s = .next t ∧
    exec .comb { t with fsm := .exec, opa := t.resa, opb := t.resb } = .next u ∧
    u.resa = s.opa ∧ u.err = s.err := by
  refine ⟨_, _, exec_split_of_exec hs, eq_finishedWith (exec_comb_of_exec rfl) ?fits, ?resa, rfl⟩
  case fits => exact Bool.and_eq_true_iff.2 ⟨fitsHalf_zext64 _, fitsHalf_zext64 _⟩
  case resa =>
    show lo32 (zext64 (hi32 s.opa)) ++ lo32 (zext64 (lo32 s.opa)) = s.opa
    rw [lo32_zext64, lo32_zext64, hi32_append_lo32]

section
variable {s : State} (hs : s.fsm = .exec)
include hs

theorem exec_xork_of_zext64 {e : Subkey} (ha : s.opa = zext64 e) (hb : fitsSubkey s.opb = true) :
    exec .xork s = .next (finishedWith (zext64 (e ^^^ lo48 s.opb)) s) := by
  have hfits : (fitsSubkey s.opa && fitsSubkey s.opb) = true := by rw [ha, fitsSubkey_zext64, hb]; rfl
  rw [eq_finishedWith (exec_xork_of_exec hs) hfits, ha, lo48_zext64]

theorem exec_sbox_of_zext64 {x : Subkey} (ha : s.opa = zext64 x) :
    exec .sbox s = .next (finishedWith (zext64 (sF x)) s) := by
  rw [eq_finishedWith (exec_sbox_of_exec hs) (ha ▸ fitsSubkey_zext64 x), ha, lo48_zext64]

theorem exec_permp_of_zext64 {v : Half} (ha : s.opa = zext64 v) :
    exec .permp s = .next (finishedWith (zext64 (pF v)) s) := by
  rw [eq_finishedWith (exec_permp_of_exec hs) (ha ▸ fitsHalf_zext64 v), ha, lo32_zext64]

end

/-- The last three stages of FFN, from the expanded half `e` that EXP left in RESA (R99 to R101). -/
theorem exec_stages_of_exp {s : State} (e : Subkey) (hb : fitsSubkey s.opb = true) : ∃ t₂ t₃ t₄ : State,
    exec .xork (chained (finishedWith (zext64 e) s)) = .next t₂ ∧ exec .sbox (chained t₂) = .next t₃ ∧
    exec .permp (chained t₃) = .next t₄ ∧ t₄.resa = zext64 (pF (sF (e ^^^ lo48 s.opb))) ∧ t₄.err = s.err := by
  have hopb := chained_opb (zext64 e) s
  refine ⟨_, _, _, exec_xork_of_zext64 rfl (chained_opa _ s) (by rw [hopb, hb]),
    exec_sbox_of_zext64 rfl (chained_opa _ _), exec_permp_of_zext64 rfl (chained_opa _ _), ?resa, ?err⟩
  case resa => rw [hopb]; rfl
  case err => rw [finishedWith_err, chained_err, chained_err, chained_err]

/-- The four stages of FFN, one command each (R92, R98 to R102). -/
theorem exec_ffn_stages {s : State} (hs : s.fsm = .exec) (ha : fitsHalf s.opa = true)
    (hb : fitsSubkey s.opb = true) : ∃ t₁ t₂ t₃ t₄ u : State,
      exec .exp s = .next t₁ ∧ exec .xork (chained t₁) = .next t₂ ∧ exec .sbox (chained t₂) = .next t₃ ∧
      exec .permp (chained t₃) = .next t₄ ∧ exec .ffn s = .next u ∧ u.resa = t₄.resa ∧ t₄.err = s.err := by
  obtain ⟨t₂, t₃, t₄, hxork, hsbox, hpermp, hresa, herr⟩ := exec_stages_of_exp (eF (lo32 s.opa)) hb
  have hffn := eq_finishedWith (exec_ffn_of_exec hs) (Bool.and_eq_true_iff.2 ⟨ha, hb⟩)
  exact ⟨_, t₂, t₃, t₄, _, eq_finishedWith (exec_exp_of_exec hs) ha, hxork, hsbox, hpermp, hffn, hresa.symm, herr⟩

/-- What RNDS of round `i + 1` leaves in RESA, with the cache filled for the key `k` (R104). -/
theorem resa_of_exec_rnds {k : Word} {i : RoundIx} {s t : State} (hs : s.fsm = .exec) (hk : s.kv = true)
    (hsk : s.sk = keySchedule k) (h : exec (.rnds (BitVec.ofNat 5 (i.val + 1))) s = .next t) :
    t.resa = roundF s.opa (subkeyOf k i) := by
  obtain rfl := Host.Outcome.next.inj ((exec_rnds_of_exec hs hk i).symm.trans h)
  show roundF s.opa s.sk[i] = roundF s.opa (subkeyOf k i)
  rw [hsk, getElem_keySchedule]

/-- A sequence that makes each round of the key `k` in turn is the controller's sequence of blocks. -/
theorem eq_roundsF {ksel : RoundIx → Subkey} {b : Word} {x : Nat → Word} (hzero : x 0 = b)
    (hround : ∀ i : RoundIx, x (i.val + 1) = roundF (x i.val) (ksel i)) {n : Nat} (hn : n ≤ 16) :
    x n = roundsF ksel b n := by
  induction n with
  | zero => exact hzero
  | succ n ih =>
    rw [roundsF_succ _ _ n hn, ← ih (Nat.le_of_succ_le hn)]
    exact hround ⟨n, hn⟩

/-- IP moves a single bit to the position that FP's table brings it back from (R73). -/
theorem ipF_singleBit : ∀ i : Fin 64,
    ipF (1#64 <<< i.val) = 1#64 <<< (64 - tableFP.getD (63 - i.val) 0) := by decide +kernel

theorem exists_ipF_singleBit (i : Fin 64) : ∃ j : Fin 64, ipF (1#64 <<< i.val) = 1#64 <<< j.val := by
  have entries : ∀ i : Fin 64, 64 - tableFP.getD (63 - i.val) 0 < 64 := by decide +kernel
  exact ⟨⟨_, entries i⟩, ipF_singleBit i⟩

/-! ### The obligation -/

/-- Settles O35: the corner values are evaluated, and each composition is the commands' results put together. -/
theorem datapathPropertiesTheSpecDerives : Obligations.DatapathPropertiesTheSpecDerives := by
  refine ⟨exists_ipF_singleBit, ?_, ?_, ?_, ?_, ?_, ?_, fun _ hs => exec_comb_of_split hs, ?_, ?_, ?_, ?_, ?_, ?_, ?_, ?_,
    ?_, ?_, fun _ hs ha hb => exec_ffn_stages hs (fitsHalf_eq_true.2 ha) (fitsSubkey_eq_true.2 hb), ?rounds⟩
  case rounds =>
    intro k b x hzero hrnds
    refine eq_roundsF hzero (fun i => ?_) (Nat.le_refl 16)
    obtain ⟨s, t, hs, hk, hsk, hopa, hexec, hres⟩ := hrnds i
    rw [hres, resa_of_exec_rnds hs hk hsk hexec, hopa]
  all_goals decide +kernel

end Sys2Proof.Machine
end
